-- ==== Sys2Proof/Word.lean ====
section
/-! DEFINITION. The words of the part: bytes, coordinates and times. -/

namespace Sys2Proof

/-- One byte of a frame, a request or a response. -/
abbrev Byte := BitVec 8

/-- A coordinate, in web units of 0.1 mm, wrapping at 2^32 (00 Conventions). -/
abbrev Coord := BitVec 32

/-- A reading of the millisecond timebase, wrapping at 2^32 (R174). -/
abbrev Time := BitVec 32

/-- A mark number, wrapping at 2^16 (00 Conventions). -/
abbrev MarkNo := BitVec 16

/-- A set of lanes: bit n − 1 is set for lane n (R189). -/
abbrev Lanes := BitVec 16

/-- The epoch number, wrapping at 2^8 (00 Conventions). -/
abbrev Epoch := BitVec 8

/-- Four things of one kind: channels 1 to 4 or sensors 1 to 4, numbered from 0 here. -/
structure Four (α : Type) where
  c1 : α
  c2 : α
  c3 : α
  c4 : α
  deriving DecidableEq, Repr

/-- The same value four times. -/
def Four.all {α : Type} (a : α) : Four α := ⟨a, a, a, a⟩

/-- The i-th of four. -/
def Four.get {α : Type} (f : Four α) (i : Fin 4) : α :=
  match i with
  | 0 => f.c1
  | 1 => f.c2
  | 2 => f.c3
  | 3 => f.c4

/-- Four things with the i-th replaced. -/
def Four.set {α : Type} (f : Four α) (i : Fin 4) (a : α) : Four α :=
  match i with
  | 0 => { f with c1 := a }
  | 1 => { f with c2 := a }
  | 2 => { f with c3 := a }
  | 3 => { f with c4 := a }

/-- Each of four, changed by one function. -/
def Four.map {α β : Type} (f : Four α) (g : α → β) : Four β :=
  ⟨g f.c1, g f.c2, g f.c3, g f.c4⟩

end Sys2Proof
end

