-- ==== Sys2Proof/Config.lean ====
section
/-! DEFINITION. The configuration block (09, section 9.2) as the part stores it, and the one free value of the model. -/

namespace Sys2Proof

/-- A logic level of a pin. -/
inductive Level
  | low
  | high
  deriving DecidableEq, Repr

/-- The other level. -/
def Level.flip : Level → Level
  | .low => .high
  | .high => .low

/-- The encoder direction sense (R1). -/
inductive Sense
  | normal
  | inverted
  deriving DecidableEq, Repr

/-- The bus rate (R140). -/
inductive BusRate
  | k250
  | k500
  | k1000
  deriving DecidableEq, Repr

/-- The trim gain (R72). -/
inductive TrimGain
  | full
  | half
  | quarter
  deriving DecidableEq, Repr

/-- The width unit of an output channel (03, section 3.2). -/
inductive WidthUnit
  | wu
  | ms
  deriving DecidableEq, Repr

/-- The edge setting of a sensor (04, section 4.1). -/
inductive EdgeSetting
  | rising
  | falling
  | both
  deriving DecidableEq, Repr

/-- The function of a sensor; SOURCE carries its kind and lanes (04, section 4.1). -/
inductive SensorFunction
  | off
  | source (kind : Fin 8) (lanes : Lanes)
  | sight
  | cut
  deriving DecidableEq, Repr

/-- The eight action types (R43). -/
inductive ActionType
  | pulse
  | set
  | clear
  | toggle
  | hold
  | sight
  | record
  | note
  deriving DecidableEq, Repr

/-- One entry of the action table (R43). The parameter is a channel or a sensor, from 0 for the first. -/
structure TableEntry where
  type : ActionType
  param : Option (Fin 4)
  offset : Int
  width : Nat
  byExtent : Bool
  deriving DecidableEq, Repr

/-- Settings of one output channel. -/
structure OutputSettings where
  idle : Level
  unit : WidthUnit
  deriving DecidableEq, Repr

/-- Settings of one sensor input. -/
structure SensorSettings where
  edge : EdgeSetting
  offset : Int
  function : SensorFunction
  deriving DecidableEq, Repr

/-- The configuration block, field by field in index order (09, section 9.2). -/
structure Settings where
  station : Nat
  path : Nat
  busRate : BusRate
  ratioN : Nat
  ratioD : Nat
  sense : Sense
  reverseAllowance : Nat
  laneCount : Nat
  rollMap : Bool
  followCuts : Bool
  cutChannel : Option (Fin 4)
  cutWidth : Nat
  trimGain : TrimGain
  trimLimit : Nat
  missLimit : Nat
  refreshPeriod : Nat
  quietInterval : Nat
  joinInterval : Nat
  discardInterval : Nat
  outputs : Four OutputSettings
  sensors : Four SensorSettings
  /-- The action table: eight lists, by mark kind. -/
  table : List (List TableEntry)
  deriving DecidableEq, Repr

/-- What the model reads as settings while the store is empty. No rule of the part reads a setting then;
the value keeps the functions total (log 28). -/
def Settings.blank : Settings where
  station := 0
  path := 0
  busRate := .k250
  ratioN := 1
  ratioD := 1
  sense := .normal
  reverseAllowance := 0
  laneCount := 1
  rollMap := false
  followCuts := false
  cutChannel := none
  cutWidth := 1
  trimGain := .full
  trimLimit := 1
  missLimit := 0
  refreshPeriod := 100
  quietInterval := 10
  joinInterval := 50
  discardInterval := 10
  outputs := .all ⟨.low, .wu⟩
  sensors := .all ⟨.rising, 0, .off⟩
  table := []

/-- FREE VALUE (log 9). The placement code in the OK of a POST MARK whose mark R20 discards as a repeat of a
held record: the table of R27 names no code for it. Nothing is known of it but its width, the range of the codes. -/
opaque Config.freePlacement : Nat → BitVec 2

end Sys2Proof
end

