-- ==== Sys2Proof/Syntax.lean ====
section
/-! DEFINITION. The commands of the part: one constructor for each row of spec/opcode_table.json. -/

namespace Sys2Proof

/-- One line of the quadrature encoder. -/
inductive EncoderLine
  | enca
  | encb
  deriving DecidableEq, Repr

/-- The blocks that take a movement of the coordinate (R6). -/
inductive MoveBlock
  | mke
  | scu
  | aou
  | rmu
  deriving DecidableEq, Repr

/-- In which order the notices that two blocks place in one event are appended (R184, log 8). -/
inductive NoticeOrder
  | listed
  | reversed
  deriving DecidableEq, Repr

/-- A command to the block: an event at its pins, on its line, in its timers, or a take by one of its blocks.
Bits of the line are `true` for recessive (1) and `false` for dominant (0). -/
inductive Instr
  /-- COLD_RESET (R173): the reset ends, with LCS at the level given. -/
  | coldReset (lcs : Level)
  /-- ENCODER_COUNT (R5): one encoder line changes; the blocks take the movement in the order given (R6). -/
  | encoderCount (line : EncoderLine) (order : List MoveBlock)
  /-- ENCODER_ERROR (R3): both encoder lines change together. -/
  | encoderError
  /-- SENSOR_EDGE (R65): the pin of a sensor has held a level for 2 µs; the order is that of a trim's movement. -/
  | sensorEdge (sensor : Fin 4) (level : Level) (order : List MoveBlock)
  /-- TIMEBASE_ADVANCE (R174). -/
  | timebaseAdvance
  /-- MS_PULSE_END (R53) on one channel. -/
  | msPulseEnd (channel : Fin 4)
  /-- CLAIM_STALE (R101) for one origin. -/
  | claimStale (origin : Nat)
  /-- REFRESH_EXPIRY (R109). -/
  | refreshExpiry
  /-- QUIET_EXPIRY (R150). -/
  | quietExpiry
  /-- DISCARD_EXPIRY (R135). -/
  | discardExpiry
  /-- JOIN_DONE (R170). -/
  | joinDone (notices : NoticeOrder)
  /-- LINE_IDLE (R141). -/
  | lineIdle
  /-- YIELD_GAP_END (R151). -/
  | yieldGapEnd
  /-- ATTEMPT_START (R145). -/
  | attemptStart
  /-- ARBITRATION_LOST (R146). -/
  | arbitrationLost
  /-- FRAME_ABORTED (R147). -/
  | frameAborted
  /-- OWN_FRAME_END (R148). -/
  | ownFrameEnd
  /-- RECEIVE_ERROR (R152): the bits read, from the start bit to the bit at which the fault is found. -/
  | receiveError (bits : List Bool)
  /-- VALID_FRAME_END (R153): the bits read, from the start bit to the last end-marker bit. -/
  | validFrameEnd (bits : List Bool) (notices : NoticeOrder)
  /-- MARK_FRAME (R21). -/
  | markFrame (notices : NoticeOrder)
  /-- ZERO_FRAME (R82). -/
  | zeroFrame
  /-- ZERO_LOOPBACK (R83). -/
  | zeroLoopback
  /-- CUTOVER_LOOPBACK (R124). -/
  | cutoverLoopback
  /-- HOLD_FRAME (R98). -/
  | holdFrame
  /-- RELEASE_FRAME (R99). -/
  | releaseFrame
  /-- DISMISS_FRAME (R102). -/
  | dismissFrame
  /-- CLAIMS_FRAME (R100). -/
  | claimsFrame (notices : NoticeOrder)
  /-- CENSUS_FRAME (R103). -/
  | censusFrame
  /-- CUTOVER_FRAME (R130). -/
  | cutoverFrame
  /-- LOCAL_TRANSACTION (R177, R179): the levels of LDI at the rising edges of LCK between the fall and the rise of
  LCS, the first one first; `true` is high. -/
  | localTransaction (bits : List Bool)
  /-- CONFIGURE (R167): the take of the request. -/
  | configure
  /-- RESTART (R172): the take of the request. -/
  | restart
  /-- READ_STATE (R182): the take of the request. -/
  | readState
  /-- READ_COUNTERS (R183): the take of the request. -/
  | readCounters
  /-- TAKE_NOTICES (R186): the take of the request. -/
  | takeNotices
  /-- READ_MARKS (R42): the take of the request. -/
  | readMarks
  /-- POST_MARK (R27): the take of the request. -/
  | postMark
  /-- ZERO (R81): the take of the request. -/
  | zero
  /-- READ_HOLDS (R113): the take of the request. -/
  | readHolds
  /-- HOLD (R105): the take of the request. -/
  | hold
  /-- RELEASE (R106): the take of the request. -/
  | release
  /-- DISMISS (R107): the take of the request. -/
  | dismiss
  /-- CUTOVER_AT (R126): the take of a CUTOVER request whose mode is not NOW (log 11). -/
  | cutoverAt
  /-- CUTOVER_NOW (R128): the take of a CUTOVER request whose mode is NOW. -/
  | cutoverNow
  /-- CANCEL_CUTOVER (R131): the take of the request. -/
  | cancelCutover
  /-- READ_ROLL (R134): the take of the request. -/
  | readRoll
  /-- FREE_ROLL (R133): the take of the request. -/
  | freeRoll
  /-- UNDEFINED (R181): the take of a request whose code is unknown. -/
  | undefined
  /-- START_BIT_READ (R141): a dominant bit is read while this station drives nothing. -/
  | startBitRead
  /-- RESETN_HELD_LOW (R173): RESETN falls, or power is lost. -/
  | resetnHeldLow
  deriving DecidableEq, Repr

end Sys2Proof
end

