-- ==== Sys2Proof/WellFormed.lean ====
section
/-! DEFINITION. Which commands are events of the part: the checks on operands. -/

namespace Sys2Proof

/-- A block order names each of the four blocks of R6 once. -/
def wellFormedOrder (order : List MoveBlock) : Bool :=
  order.length == 4 && order.contains .mke && order.contains .scu && order.contains .aou && order.contains .rmu

/-- The bits of a frame begin with its dominant start bit (R142). -/
def wellFormedBits (bits : List Bool) : Bool :=
  match bits with
  | [] => false
  | b :: _ => !b

/-- The operand checks of every command. `Machine.exec` is total on the commands this refuses too. -/
def Instr.wellFormed (i : Instr) : Bool :=
  match i with
  | .encoderCount _ order => wellFormedOrder order
  | .sensorEdge _ _ order => wellFormedOrder order
  | .claimStale origin => 1 ≤ origin && origin ≤ 24
  | .receiveError bits => wellFormedBits bits
  | .validFrameEnd bits _ => wellFormedBits bits
  | .coldReset _ => true
  | .encoderError => true
  | .timebaseAdvance => true
  | .msPulseEnd _ => true
  | .refreshExpiry => true
  | .quietExpiry => true
  | .discardExpiry => true
  | .joinDone _ => true
  | .lineIdle => true
  | .yieldGapEnd => true
  | .attemptStart => true
  | .arbitrationLost => true
  | .frameAborted => true
  | .ownFrameEnd => true
  | .markFrame _ => true
  | .zeroFrame => true
  | .zeroLoopback => true
  | .cutoverLoopback => true
  | .holdFrame => true
  | .releaseFrame => true
  | .dismissFrame => true
  | .claimsFrame _ => true
  | .censusFrame => true
  | .cutoverFrame => true
  | .localTransaction _ => true
  | .configure => true
  | .restart => true
  | .readState => true
  | .readCounters => true
  | .takeNotices => true
  | .readMarks => true
  | .postMark => true
  | .zero => true
  | .readHolds => true
  | .hold => true
  | .release => true
  | .dismiss => true
  | .cutoverAt => true
  | .cutoverNow => true
  | .cancelCutover => true
  | .readRoll => true
  | .freeRoll => true
  | .undefined => true
  | .startBitRead => true
  | .resetnHeldLow => true

end Sys2Proof
end

