-- ==== Sys2Proof/Decode.lean ====
section
/-! DEFINITION. The words that spell a command: none, since no row of spec/opcode_table.json gives its command bits. -/

namespace Sys2Proof

/-- The command a word of the opcode table spells. The table gives bits to no row, so no word spells one (log 18). -/
def decodeTableWord (_nbits _w : Nat) : Option Instr := none

end Sys2Proof
end

