-- ==== Sys2Proof/Machine/State.lean ====
section
/-! DEFINITION. The state of the part, block by block, as plain data, and its value right after a cold reset. -/

namespace Sys2Proof.Machine

/-- Why a command would stop with a fault. There is no reason: the spec lets nothing stop the part. Detected errors
are effects on state (R175, R176, R181), so no command raises a fault. -/
inductive Fault
  deriving DecidableEq, Repr

/-- Why a command would be refused. -/
inductive Refusal
  /-- Raised by an arm of `exec` whose command has no meaning yet. Safe. No arm raises it. -/
  | notModelled (mnemonic : String)
  deriving DecidableEq, Repr

/-! ### Length Counting Unit (01) -/

inductive Direction
  | forward
  | reverse
  deriving DecidableEq, Repr

/-- The progress of a joining station (R90). -/
inductive JoinSync
  | adopting
  | zeroed
  | lagging
  deriving DecidableEq, Repr

structure Lcu where
  /-- The encoder levels (ENCA, ENCB) last decoded; none while not held (R15). -/
  levels : Option (Level × Level)
  raw : BitVec 32
  direction : Direction
  remainder : Nat
  coord : Coord
  synced : Bool
  epoch : Epoch
  /-- δ_prev; none while invalid. -/
  deltaPrev : Option (BitVec 32)
  joinSync : JoinSync
  reverseRun : Nat
  reverseSent : Bool
  encoderOutstanding : Bool
  deriving DecidableEq, Repr

/-! ### Mark Engine (02) -/

/-- A mark kind, by its code (02, section 2.1). -/
abbrev MarkKind := Fin 8

inductive ActionState
  | pending
  | armed
  | done
  | missed
  deriving DecidableEq, Repr

structure Action where
  type : ActionType
  param : Option (Fin 4)
  actionPos : Coord
  triggerPos : Coord
  width : Nat
  state : ActionState
  deriving DecidableEq, Repr

/-- A mark of another record: origin and mark number (00, Mark identity). -/
abbrev MarkRef := Nat × MarkNo

structure MarkRecord where
  /-- The model's own name for the record (log 10). -/
  uid : Nat
  origin : Nat
  /-- Absent for a BLIND record. -/
  number : Option MarkNo
  kind : MarkKind
  position : Coord
  lanes : Lanes
  extent : Nat
  late : Bool
  rebased : Bool
  fresh : Bool
  spill : Bool
  actions : List Action
  deriving DecidableEq, Repr

/-- The spill record when not empty (R30). -/
structure Spill where
  low : Coord
  high : Coord
  count : Nat
  deriving DecidableEq, Repr

/-- An origin table entry (R24). -/
inductive OriginEntry
  | unknown
  | tracking (last : MarkNo) (position : Coord)
  deriving DecidableEq, Repr

structure Mke where
  queue : List MarkRecord
  spill : Option Spill
  /-- Entry o − 1 is that of origin o, 1 to 24. -/
  origins : List OriginEntry
  nextNumber : MarkNo
  freshPending : Bool
  lastPosted : Option Coord
  /-- The model's own: the name the next record takes (log 10). -/
  nextUid : Nat
  /-- The model's own: retirements whose spill entry is still owed within the event (R31, log 10). -/
  retired : Nat
  /-- The model's own: how many free values have been used (log 9). -/
  freeUsed : Nat
  deriving DecidableEq, Repr

/-! ### Action Output Unit (03) -/

/-- A channel state; the end is present in PULSING only (R46). -/
inductive ChannelState
  | idle
  | pulsing (stop : BitVec 32)
  | latched
  deriving DecidableEq, Repr

structure Channel where
  state : ChannelState
  merges : Nat
  deriving DecidableEq, Repr

structure Aou where
  channels : Four Channel
  /-- How often the pin of each channel has changed its level since the last cold reset: the edges on OUTn, those
  within one event included (R46, log 6). -/
  edges : Four Nat
  deriving DecidableEq, Repr

/-! ### Sensor Capture Unit (04) -/

structure Window where
  centre : Coord
  half : Nat
  close : Coord
  /-- The owning action: its record's name and its place in the action list. -/
  owner : Nat
  action : Nat
  /-- Origin and mark number of the owning record; none for BLIND. -/
  mark : Option MarkRef
  deriving DecidableEq, Repr

structure Scu where
  filtered : Four (Option Level)
  captures : Four (Option (Coord × Time))
  windows : Four (List Window)
  misses : Nat
  deriving DecidableEq, Repr

/-! ### Hold Table Unit (06) -/

inductive Reason
  | mark
  | operator
  | desync
  | sight
  deriving DecidableEq, Repr

structure HoldRecord where
  origin : Nat
  claim : Nat
  reason : Reason
  ref : Option MarkRef
  stale : Bool
  deriving DecidableEq, Repr

structure Htu where
  table : List HoldRecord
  /-- Place o − 1 is the last-heard time of origin o. -/
  lastHeard : List (Option Time)
  /-- The expiry of the refresh timer; none while stopped. -/
  refresh : Option Time
  tail : Nat
  /-- How often RUNOK has been high within one event alone since the last cold reset (R112, log 6). -/
  flashes : Nat
  deriving DecidableEq, Repr

/-! ### Roll Map Unit (07) -/

structure RollEntry where
  mark : Option MarkRef
  kind : MarkKind
  lanes : Lanes
  position : Nat
  extent : Nat
  late : Bool
  splitTail : Bool
  splitHead : Bool
  blind : Bool
  deriving DecidableEq, Repr

/-- A roll set being wound, or the record of a closed one. It is CLOSING while it has a cut (R117). -/
structure RollSet where
  number : Nat
  start : Coord
  cut : Option Coord
  /-- The cut source, present exactly when the flag FOLLOWED is set (R130). -/
  followed : Option (Nat × Nat)
  overflow : Bool
  uncertain : Bool
  interrupted : Bool
  dropped : Nat
  entries : List RollEntry
  deriving DecidableEq, Repr

inductive Announcement
  | none
  | queued
  | sent
  | notSent
  deriving DecidableEq, Repr

structure ClosedSet where
  set : RollSet
  endLength : Nat
  epoch : Epoch
  announcement : Announcement
  read : Bool
  deriving DecidableEq, Repr

structure Rmu where
  current : Option RollSet
  next : Option RollSet
  closed : List ClosedSet
  nextSet : Nat
  /-- The pending read: set number and discard expiry. -/
  pendingRead : Option (Nat × Time)
  deriving DecidableEq, Repr

/-! ### Line Bus Interface (08) -/

inductive SendMode
  | off
  | ready
  | quiet
  | mute
  deriving DecidableEq, Repr

inductive LineState
  | idle
  | frame
  | waitIdle
  deriving DecidableEq, Repr

/-- The level of the line as driven at LTX (R140). -/
inductive LineLevel
  | dominant
  | recessive
  deriving DecidableEq, Repr

/-- The frame kinds of R142. -/
inductive FrameKind
  | zero
  | hold
  | release
  | dismiss
  | cutover
  | mark
  | claims
  | census
  deriving DecidableEq, Repr

/-- The content of a MARK frame (08, section 8.6). -/
structure MarkFrame where
  number : MarkNo
  epoch : Epoch
  kind : MarkKind
  fresh : Bool
  position : Coord
  lanes : Lanes
  extent : Nat
  deriving DecidableEq, Repr

/-- A frame of this station in the outbound queue or the send slot. A CLAIMS frame has no content there: it is
built at each attempt (R111). -/
inductive OutFrame
  | zero (z : Coord) (path : Nat)
  | hold (claim : Nat) (reason : Reason) (ref : Option MarkRef)
  | release (claim : Nat)
  | dismiss (target : Nat)
  | cutover (cut : Coord) (set : Nat)
  | mark (m : MarkFrame)
  | claims
  | census
  deriving DecidableEq, Repr

/-- A frame on the line: kind (with its class), origin and payload bytes. -/
structure LineFrame where
  kind : FrameKind
  origin : Nat
  payload : List Byte
  deriving DecidableEq, Repr

structure SendSlot where
  frame : OutFrame
  failed : Nat
  deriving DecidableEq, Repr

/-- An entry of the inbound buffer, with the raw count captured at its frame end (R14). -/
structure InEntry where
  frame : LineFrame
  raw : BitVec 32
  deriving DecidableEq, Repr

/-- The loopback, with the number of inbound entries whose frame end came before it (R83). -/
structure Loopback where
  frame : LineFrame
  raw : BitVec 32
  ahead : Nat
  deriving DecidableEq, Repr

inductive DeferredRequest
  | census
  | claims
  deriving DecidableEq, Repr

structure Lbi where
  mode : SendMode
  line : LineState
  recessiveRun : Nat
  yieldPending : Bool
  quiet : Option Time
  urgent : List OutFrame
  normal : List OutFrame
  slot : Option SendSlot
  /-- The frame whose bits an attempt is sending; none while no attempt is under way. -/
  attempt : Option LineFrame
  deferred : List DeferredRequest
  inbound : List InEntry
  loopback : Option Loopback
  overrunRun : Bool
  errorRun : Bool
  deriving DecidableEq, Repr

/-! ### Station Control (09) -/

inductive StationState
  | unconfigured
  | joining
  | active
  | desync
  | silent
  deriving DecidableEq, Repr

inductive FaultKind
  | encoderError
  | epochAhead
  | sendFailed
  | inboundOverrun
  | setLost
  | duplicateStation
  deriving DecidableEq, Repr

structure FaultRecord where
  kind : FaultKind
  time : Time
  origin : Nat
  deriving DecidableEq, Repr

/-- The eight lifetime counters (R176). -/
structure Counters where
  framesAborted : Nat
  framesDropped : Nat
  receiveErrors : Nat
  inboundOverruns : Nat
  marksSpilled : Nat
  gaps : Nat
  setsLost : Nat
  encoderErrors : Nat
  deriving DecidableEq, Repr

structure Stc where
  station : StationState
  config : Option Settings
  locked : Bool
  join : Option Time
  now : Time
  fault : Option FaultRecord
  counters : Counters
  deriving DecidableEq, Repr

/-! ### Local Port (10) -/

/-- The statuses of R181. -/
inductive Status
  | ok
  | pending
  | retry
  | busy
  | state
  | range
  | order
  | locked
  | inuse
  | nosuch
  | badframe
  | notready
  | undefined
  | none
  deriving DecidableEq, Repr

structure Response where
  code : Byte
  status : Status
  payload : List Byte
  deriving DecidableEq, Repr

/-- The response slot (R178). In PREPARING it keeps the taken request, whose owning block has not taken it yet. -/
inductive Slot
  | ready (response : Response)
  | preparing (code : Byte) (payload : List Byte)
  deriving DecidableEq, Repr

/-- The notice kinds, in the order of their codes (R189). -/
inductive NoticeKind
  | encoder
  | reverse
  | markInvalid
  | markStale
  | markDuplicate
  | markClash
  | gap
  | queueSpill
  | markNotSent
  | markLate
  | markArrived
  | queueEmptied
  | outputMerged
  | outputSkipped
  | holdSlotsFull
  | sighted
  | trimLimit
  | sightMissed
  | zeroInvalid
  | zeroApplied
  | epochAhead
  | claimInvalid
  | claimRevived
  | claimStale
  | claimsDismissed
  | setOverflow
  | cutNotSent
  | setClosed
  | cutIgnored
  | setLost
  | frameAborted
  | sendFailed
  | receiveError
  | inboundOverrun
  | outboundDiscarded
  | joinDone
  | duplicateStation
  | noticesLost
  deriving DecidableEq, Repr

structure Notice where
  kind : NoticeKind
  time : Time
  coord : Option Coord
  origin : Option Nat
  number : Option MarkNo
  value : Option (BitVec 32)
  deriving DecidableEq, Repr

structure Lpt where
  slot : Slot
  notices : List Notice
  lost : Nat
  deriving DecidableEq, Repr

/-! ### Pins (00, Pin list) -/

structure Pins where
  resetn : Level
  enca : Level
  encb : Level
  sensors : Four Level
  lcs : Level
  outputs : Four Level
  ltx : LineLevel
  runok : Level
  attn : Level
  /-- The levels on LDO at the rising edges of LCK in the most recent transaction, the first one first (R177,
  log 12). -/
  ldo : List Bool
  /-- LDO is driven (R177). -/
  ldoDriven : Bool
  deriving DecidableEq, Repr

/-! ### The whole part -/

/-- The state of the part and the queue of commands waiting for it. -/
structure State where
  lcu : Lcu
  mke : Mke
  aou : Aou
  scu : Scu
  htu : Htu
  rmu : Rmu
  lbi : Lbi
  stc : Stc
  lpt : Lpt
  pins : Pins
  pending : List Instr
  deriving DecidableEq, Repr

/-! Each block of the state, replaced. -/

def State.withLcu (s : State) (x : Lcu) : State := { s with lcu := x }
def State.withMke (s : State) (x : Mke) : State := { s with mke := x }
def State.withAou (s : State) (x : Aou) : State := { s with aou := x }
def State.withScu (s : State) (x : Scu) : State := { s with scu := x }
def State.withHtu (s : State) (x : Htu) : State := { s with htu := x }
def State.withRmu (s : State) (x : Rmu) : State := { s with rmu := x }
def State.withLbi (s : State) (x : Lbi) : State := { s with lbi := x }
def State.withStc (s : State) (x : Stc) : State := { s with stc := x }
def State.withLpt (s : State) (x : Lpt) : State := { s with lpt := x }
def State.withPins (s : State) (x : Pins) : State := { s with pins := x }
def State.withPending (s : State) (x : List Instr) : State := { s with pending := x }

/-! ### Cold reset values, block by block -/

/-- R15, R95. -/
def Lcu.cold : Lcu where
  levels := none
  raw := 0
  direction := .forward
  remainder := 0
  coord := 0
  synced := false
  epoch := 0
  deltaPrev := none
  joinSync := .adopting
  reverseRun := 0
  reverseSent := false
  encoderOutstanding := false

/-- R40. -/
def Mke.cold : Mke where
  queue := []
  spill := none
  origins := List.replicate 24 .unknown
  nextNumber := 0
  freshPending := true
  lastPosted := none
  nextUid := 0
  retired := 0
  freeUsed := 0

/-- R62. -/
def Aou.cold : Aou where
  channels := .all ⟨.idle, 0⟩
  edges := .all 0

/-- R80. -/
def Scu.cold : Scu where
  filtered := .all none
  captures := .all none
  windows := .all []
  misses := 0

/-- R115. -/
def Htu.cold : Htu where
  table := []
  lastHeard := List.replicate 24 none
  refresh := none
  tail := 0
  flashes := 0

/-- R138. -/
def Rmu.cold : Rmu where
  current := none
  next := none
  closed := []
  nextSet := 1
  pendingRead := none

/-- R164. -/
def Lbi.cold : Lbi where
  mode := .off
  line := .waitIdle
  recessiveRun := 0
  yieldPending := false
  quiet := none
  urgent := []
  normal := []
  slot := none
  attempt := none
  deferred := []
  inbound := []
  loopback := none
  overrunRun := false
  errorRun := false

/-- R173. -/
def Counters.cold : Counters := ⟨0, 0, 0, 0, 0, 0, 0, 0⟩

/-- R173. -/
def Stc.cold : Stc where
  station := .unconfigured
  config := none
  locked := false
  join := none
  now := 0
  fault := none
  counters := .cold

/-- R178, R188. -/
def Lpt.cold : Lpt where
  slot := .ready ⟨0, .none, []⟩
  notices := []
  lost := 0

/-- The output pins after a cold reset (R62, R115, R164, R188). The input levels are the model's choice (log 5). -/
def Pins.cold : Pins where
  resetn := .high
  enca := .low
  encb := .low
  sensors := .all .low
  lcs := .high
  outputs := .all .low
  ltx := .recessive
  runok := .low
  attn := .low
  ldo := []
  ldoDriven := false

/-- The part right after a cold reset (R173), with no command waiting. -/
def State.reset : State where
  lcu := .cold
  mke := .cold
  aou := .cold
  scu := .cold
  htu := .cold
  rmu := .cold
  lbi := .cold
  stc := .cold
  lpt := .cold
  pins := .cold
  pending := []

end Sys2Proof.Machine
end

