-- ==== Sys2Proof/Machine/Ops.lean ====
section
/-! DEFINITION. The operations every block uses: modular order, counts that hold, ordered insertion, the settings in
force, and when a command reaches the part at all. -/

namespace Sys2Proof.Machine

/-! ### Modular order (00, Modular order) -/

/-- `a` is before `b`. -/
def before (a b : BitVec 32) : Bool :=
  1 ≤ (b - a).toNat && (b - a).toNat ≤ 2147483647

/-- `p` has been reached when the coordinate, or the time, is `now`. -/
def reached (now p : BitVec 32) : Bool :=
  now == p || before p now

/-- The movement from `a` to `b` reaches `p` (R6). -/
def reaches (a b p : BitVec 32) : Bool :=
  before a b && (1 ≤ (p - a).toNat && (p - a).toNat ≤ (b - a).toNat)

/-- The later of a held value and another; the held one where neither is after the other (log 20). -/
def later (held other : BitVec 32) : BitVec 32 :=
  if before held other then other else held

/-- The earlier of a held value and another; the held one where neither is before the other (log 20). -/
def earlier (held other : BitVec 32) : BitVec 32 :=
  if before other held then other else held

/-- A signed number of wu as a change of a coordinate. -/
def ofSigned (i : Int) : BitVec 32 := BitVec.ofInt 32 i

/-! ### Counts that hold at a top -/

/-- One more, holding at `top`. -/
def holdInc (top n : Nat) : Nat := if n < top then n + 1 else n

/-- `k` more, holding at `top`. -/
def holdAdd (top n k : Nat) : Nat := if n + k ≤ top then n + k else max n top

/-! ### Lists -/

/-- Insert `x` after every element whose key is not greater than its own. -/
def insertByKey {α : Type} (key : α → Nat) (x : α) : List α → List α
  | [] => [x]
  | y :: ys => if key y ≤ key x then y :: insertByKey key x ys else x :: y :: ys

/-- Sort by key, keeping the order of equal keys. -/
def sortByKey {α : Type} (key : α → Nat) (xs : List α) : List α :=
  xs.foldl (fun acc x => insertByKey key x acc) []

/-- Each element with its place, counted from `n`. -/
def numbered {α : Type} : Nat → List α → List (Nat × α)
  | _, [] => []
  | n, x :: xs => (n, x) :: numbered (n + 1) xs

/-- Replace the element at a place by a function of it. -/
def modifyAt {α : Type} (f : α → α) : Nat → List α → List α
  | _, [] => []
  | 0, x :: xs => f x :: xs
  | n + 1, x :: xs => x :: modifyAt f n xs

/-- The four channels or sensors, in order. -/
def fourIndices : List (Fin 4) := [0, 1, 2, 3]

/-! ### What is in force -/

/-- The settings in force. -/
def State.cfg (s : State) : Settings := s.stc.config.getD .blank

/-- The part is not held in reset (R173). -/
def State.live (s : State) : Bool := s.pins.resetn == .high

/-- The station is in a configured state (R165). -/
def State.configured (s : State) : Bool := s.stc.station != .unconfigured

/-- The station is JOINING, ACTIVE or DESYNC. -/
def State.onLine (s : State) : Bool :=
  s.stc.station == .joining || s.stc.station == .active || s.stc.station == .desync

/-- The station is ACTIVE. -/
def State.isActive (s : State) : Bool := s.stc.station == .active

/-- The pin of a channel in the state is at the active level (R46). -/
def ChannelState.active (c : ChannelState) : Bool :=
  match c with
  | .idle => false
  | .pulsing _ => true
  | .latched => true

/-- A station number of the line, 1 to 24 (00, Station numbers). -/
def validStation (o : Nat) : Bool := 1 ≤ o && o ≤ 24

/-- The time `ms` milliseconds ahead. -/
def State.ahead (s : State) (ms : Nat) : Time := s.stc.now + BitVec.ofNat 32 ms

/-- All lanes from 1 to the lane count. -/
def allLanes (count : Nat) : Lanes := BitVec.ofNat 16 (2 ^ count - 1)

/-- A lane set that names lanes 1 to the lane count alone, and at least one. -/
def lanesWithin (count : Nat) (lanes : Lanes) : Bool :=
  lanes != 0 && (lanes &&& allLanes count) == lanes

end Sys2Proof.Machine
end

