-- ==== Sys2Proof/Machine/Line.lean ====
section
/-! DEFINITION. Frames on the wire: fields, stuff bits, the check, and what a receiver makes of the bits it reads
(R142, R143, R144, R152). A bit is `true` for recessive (1) and `false` for dominant (0). -/

namespace Sys2Proof.Machine

/-- The class bit of a kind: urgent 0, normal 1 (R142). -/
def FrameKind.normalClass (k : FrameKind) : Bool :=
  match k with
  | .zero => false
  | .hold => false
  | .release => false
  | .dismiss => false
  | .cutover => true
  | .mark => true
  | .claims => true
  | .census => true

/-- The kind code within the class (R142). -/
def FrameKind.code (k : FrameKind) : Nat :=
  match k with
  | .zero => 1
  | .hold => 2
  | .release => 3
  | .dismiss => 4
  | .cutover => 1
  | .mark => 2
  | .claims => 3
  | .census => 4

/-- The payload lengths of a kind (R142). -/
def FrameKind.lengthOk (k : FrameKind) (n : Nat) : Bool :=
  match k with
  | .zero => n == 7
  | .hold => n == 4
  | .release => n == 1
  | .dismiss => n == 1
  | .cutover => n == 6
  | .mark => n == 12
  | .claims => 2 ≤ n && n ≤ 6
  | .census => n == 0

/-- The kind of a class and kind code; none where the code is unknown (R142). -/
def kindOf (normal : Bool) (code : Nat) : Option FrameKind :=
  match normal, code with
  | false, 1 => some .zero
  | false, 2 => some .hold
  | false, 3 => some .release
  | false, 4 => some .dismiss
  | true, 1 => some .cutover
  | true, 2 => some .mark
  | true, 3 => some .claims
  | true, 4 => some .census
  | _, _ => none

/-- The class and kind byte (R189). -/
def FrameKind.byte (k : FrameKind) : Nat := (if k.normalClass then 16 else 0) + k.code

/-- The arbitration value of a frame (R142). -/
def LineFrame.arbitration (f : LineFrame) : Nat :=
  (if f.kind.normalClass then 512 else 0) + f.kind.code * 32 + f.origin

/-- The low `width` bits of a number, most significant first. -/
def bitsOf : (width : Nat) → (n : Nat) → List Bool
  | 0, _ => []
  | w + 1, n => n.testBit w :: bitsOf w n

/-- The number a list of bits spells, most significant first. -/
def numberOf (bits : List Bool) : Nat := bits.foldl (fun acc b => 2 * acc + b.toNat) 0

/-- One bit into the check register (R144). -/
def crcStep (reg : BitVec 16) (bit : Bool) : BitVec 16 :=
  if reg.msb != bit then (reg <<< 1) ^^^ 0x5937#16 else reg <<< 1

/-- The check of the bits from the class bit to the last payload bit (R144). -/
def crc (bits : List Bool) : BitVec 16 := bits.foldl crcStep 0xFFFF#16

/-- The unstuffed bits of a frame from the class bit to the last payload bit (R142). -/
def LineFrame.body (f : LineFrame) : List Bool :=
  f.kind.normalClass :: (bitsOf 4 f.kind.code ++ bitsOf 5 f.origin ++ bitsOf 4 f.payload.length
    ++ f.payload.flatMap (fun b => bitsOf 8 b.toNat))

/-- Insert a stuff bit after every five equal bits (R143). `last` is the bit before, sent `run` times in a row. -/
def stuff : (last : Bool) → (run : Nat) → List Bool → List Bool
  | last, run, [] => if run = 5 then [!last] else []
  | last, run, b :: bs =>
    if run = 5 then
      (!last) :: b :: stuff b (if b == !last then 2 else 1) bs
    else b :: stuff b (if b == last then run + 1 else 1) bs

/-- The seven recessive bits of the end marker (R142). -/
def endMarker : List Bool := List.replicate 7 true

/-- All bits of a frame on the wire: start bit, stuffed fields and check, end marker (R142, R143). -/
def LineFrame.wire (f : LineFrame) : List Bool :=
  false :: (stuff false 1 (f.body ++ bitsOf 16 (crc f.body).toNat) ++ endMarker)

/-- The recessive bits at the end of a list of bits, holding at 255 (R141). -/
def trailingRecessive (bits : List Bool) : Nat :=
  min 255 (bits.reverse.takeWhile id).length

/-! ### The receiver (R152) -/

/-- How far a receiver has read. `read` holds the unstuffed bits after the start bit, latest first. -/
inductive ReadPhase
  | fields (read : List Bool)
  | checked (read : List Bool)
  | marker (read : List Bool) (left : Nat)
  deriving DecidableEq, Repr

/-- What a receiver makes of the bits. -/
inductive ReadResult
  | incomplete
  | fault (cause : Nat)
  | valid (frame : LineFrame)
  deriving DecidableEq, Repr

/-- Bytes from bits, eight at a time; a remainder of fewer than eight is not a byte. -/
def bytesOf : (count : Nat) → List Bool → List Byte
  | 0, _ => []
  | n + 1, bits => BitVec.ofNat 8 (numberOf (bits.take 8)) :: bytesOf n (bits.drop 8)

/-- The payload length that the 14 bits after the start bit give (R142). -/
def headerLength (bits : List Bool) : Nat := numberOf ((bits.drop 10).take 4)

/-- The faults found at the last end-marker bit, and the frame where there is none (R152, causes 5 and 6). -/
def finishRead (bits : List Bool) : ReadResult :=
  match kindOf (bits.headD false) (numberOf ((bits.drop 1).take 4)) with
  | none => .fault 5
  | some kind =>
    if kind.lengthOk (headerLength bits) then
      .valid ⟨kind, numberOf ((bits.drop 5).take 5), bytesOf (headerLength bits) (bits.drop 14)⟩
    else .fault 6

/-- After an unstuffed bit: the length above 12, the check read unlike the check computed, or more to read
(R152, causes 2 and 3). `bits` is in the order read. -/
def afterField (bits : List Bool) : ReadPhase ⊕ Nat :=
  if bits.length = 14 && 12 < headerLength bits then .inr 2
  else if 14 ≤ bits.length && bits.length = 30 + 8 * headerLength bits then
    if numberOf (bits.drop (bits.length - 16)) = (crc (bits.take (bits.length - 16))).toNat then
      .inl (.checked bits.reverse)
    else .inr 3
  else .inl (.fields bits.reverse)

/-- The receiver, bit by bit. `last` is the bit before, read `run` times in a row (R143). A stuff bit after the
check stands before the end marker (log 17). -/
def readBits : ReadPhase → (last : Bool) → (run : Nat) → List Bool → ReadResult
  | _, _, _, [] => .incomplete
  | .fields rd, last, run, b :: bs =>
    if run = 5 then
      if b == last then .fault 1 else readBits (.fields rd) b 1 bs
    else
      match afterField (rd.reverse ++ [b]) with
      | .inr cause => .fault cause
      | .inl phase => readBits phase b (if b == last then run + 1 else 1) bs
  | .checked rd, last, run, b :: bs =>
    if run = 5 then
      if b == last then .fault 1 else readBits (.marker rd 7) b 1 bs
    else if b then readBits (.marker rd 6) b 1 bs else .fault 4
  | .marker rd left, _, _, b :: bs =>
    if b then
      if left ≤ 1 then finishRead rd.reverse else readBits (.marker rd (left - 1)) b 1 bs
    else .fault 4

/-- What a receiver makes of the bits from the start bit on. -/
def readFrame (bits : List Bool) : ReadResult :=
  match bits with
  | [] => .incomplete
  | b :: bs => if b then .incomplete else readBits (.fields []) false 1 bs

end Sys2Proof.Machine
end

