-- ==== Sys2Proof/Machine/Operands.lean ====
section
/-! DEFINITION. The byte layouts of R189: numbers in bytes, enumeration codes, line frame payloads, and the local
request and response frames. -/

namespace Sys2Proof.Machine

/-! ### Numbers in bytes, most significant first -/

/-- The low `count` bytes of a number, most significant first. -/
def bytesBE : (count : Nat) → (n : Nat) → List Byte
  | 0, _ => []
  | c + 1, n => BitVec.ofNat 8 (n >>> (8 * c)) :: bytesBE c n

/-- The number a list of bytes spells, most significant first. -/
def natBE (bytes : List Byte) : Nat := bytes.foldl (fun acc b => 256 * acc + b.toNat) 0

/-- The number in `count` bytes from byte `i`. -/
def field (bytes : List Byte) (i count : Nat) : Nat := natBE ((bytes.drop i).take count)

/-- Byte `i` as a number. -/
def byteAt (bytes : List Byte) (i : Nat) : Nat := (bytes.getD i 0).toNat

/-- The signed number in four bytes from byte `i`, in two's complement. -/
def signed32 (bytes : List Byte) (i : Nat) : Int := (BitVec.ofNat 32 (field bytes i 4)).toInt

/-- A bit as the number 2 to the power `i`, or 0. -/
def bitAt (i : Nat) (b : Bool) : Nat := if b then 2 ^ i else 0

/-- A number below 256 as a byte. -/
def byteOf (n : Nat) : Byte := BitVec.ofNat 8 n

/-! ### Enumeration codes -/

def StationState.code : StationState → Nat
  | .unconfigured => 0
  | .joining => 1
  | .active => 2
  | .desync => 3
  | .silent => 4

def JoinSync.code : JoinSync → Nat
  | .adopting => 0
  | .zeroed => 1
  | .lagging => 2

def actionTypeCode : ActionType → Nat
  | .pulse => 0
  | .set => 1
  | .clear => 2
  | .toggle => 3
  | .hold => 4
  | .sight => 5
  | .record => 6
  | .note => 7

/-- The action type of a code; none for a code without meaning. -/
def actionTypeOf (code : Nat) : Option ActionType :=
  match code with
  | 0 => some .pulse
  | 1 => some .set
  | 2 => some .clear
  | 3 => some .toggle
  | 4 => some .hold
  | 5 => some .sight
  | 6 => some .record
  | 7 => some .note
  | _ => none

def ActionState.code : ActionState → Nat
  | .pending => 0
  | .armed => 1
  | .done => 2
  | .missed => 3

def Reason.code : Reason → Nat
  | .mark => 0
  | .operator => 1
  | .desync => 2
  | .sight => 3

/-- The reason of a two-bit code. -/
def reasonOf (code : Nat) : Reason :=
  match code % 4 with
  | 0 => .mark
  | 1 => .operator
  | 2 => .desync
  | _ => .sight

def SendMode.code : SendMode → Nat
  | .off => 0
  | .ready => 1
  | .quiet => 2
  | .mute => 3

def LineState.code : LineState → Nat
  | .idle => 0
  | .frame => 1
  | .waitIdle => 2

def FaultKind.code : FaultKind → Nat
  | .encoderError => 1
  | .epochAhead => 2
  | .sendFailed => 3
  | .inboundOverrun => 4
  | .setLost => 5
  | .duplicateStation => 6

def Announcement.code : Announcement → Nat
  | .none => 0
  | .queued => 1
  | .sent => 2
  | .notSent => 3

def Status.code : Status → Nat
  | .ok => 0x00
  | .pending => 0x01
  | .retry => 0x02
  | .busy => 0x03
  | .state => 0x04
  | .range => 0x05
  | .order => 0x06
  | .locked => 0x07
  | .inuse => 0x08
  | .nosuch => 0x09
  | .badframe => 0x0A
  | .notready => 0x0B
  | .undefined => 0x0C
  | .none => 0x0D

def NoticeKind.code : NoticeKind → Nat
  | .encoder => 0x01
  | .reverse => 0x02
  | .markInvalid => 0x03
  | .markStale => 0x04
  | .markDuplicate => 0x05
  | .markClash => 0x06
  | .gap => 0x07
  | .queueSpill => 0x08
  | .markNotSent => 0x09
  | .markLate => 0x0A
  | .markArrived => 0x0B
  | .queueEmptied => 0x0C
  | .outputMerged => 0x0D
  | .outputSkipped => 0x0E
  | .holdSlotsFull => 0x0F
  | .sighted => 0x10
  | .trimLimit => 0x11
  | .sightMissed => 0x12
  | .zeroInvalid => 0x13
  | .zeroApplied => 0x14
  | .epochAhead => 0x15
  | .claimInvalid => 0x16
  | .claimRevived => 0x17
  | .claimStale => 0x18
  | .claimsDismissed => 0x19
  | .setOverflow => 0x1A
  | .cutNotSent => 0x1B
  | .setClosed => 0x1C
  | .cutIgnored => 0x1D
  | .setLost => 0x1E
  | .frameAborted => 0x1F
  | .sendFailed => 0x20
  | .receiveError => 0x21
  | .inboundOverrun => 0x22
  | .outboundDiscarded => 0x23
  | .joinDone => 0x24
  | .duplicateStation => 0x25
  | .noticesLost => 0x26

/-- A channel or sensor as its number 1 to 4, or 0 for none. -/
def paramCode (p : Option (Fin 4)) : Nat :=
  match p with
  | none => 0
  | some i => i.val + 1

/-- The channel or sensor of a number 1 to 4. -/
def paramOf (n : Nat) : Option (Fin 4) :=
  match n with
  | 1 => some 0
  | 2 => some 1
  | 3 => some 2
  | 4 => some 3
  | _ => none

/-! ### Line frame payloads -/

/-- The kind of an outbound frame. -/
def OutFrame.kind : OutFrame → FrameKind
  | .zero _ _ => .zero
  | .hold _ _ _ => .hold
  | .release _ => .release
  | .dismiss _ => .dismiss
  | .cutover _ _ => .cutover
  | .mark _ => .mark
  | .claims => .claims
  | .census => .census

/-- One claim byte of a CLAIMS frame, and of byte 0 of a HOLD frame. -/
def claimByte (claim : Nat) (reason : Reason) : Nat := claim % 16 + 16 * reason.code

/-- The payload of a ZERO frame. -/
def zeroPayload (z : Coord) (path : Nat) : List Byte := bytesBE 4 z.toNat ++ bytesBE 3 path

/-- The payload of a HOLD frame. -/
def holdPayload (claim : Nat) (reason : Reason) (ref : Option MarkRef) : List Byte :=
  match ref with
  | none => [byteOf (claimByte claim reason), 0, 0, 0]
  | some (o, n) => [byteOf (claimByte claim reason + 64), byteOf o] ++ bytesBE 2 n.toNat

/-- The payload of a CUTOVER frame. -/
def cutoverPayload (cut : Coord) (set : Nat) : List Byte := bytesBE 4 cut.toNat ++ bytesBE 2 set

/-- The payload of a MARK frame. -/
def markPayload (m : MarkFrame) : List Byte :=
  bytesBE 2 m.number.toNat ++ [m.epoch, byteOf (m.kind.val + bitAt 7 m.fresh)] ++ bytesBE 4 m.position.toNat
    ++ bytesBE 2 m.lanes.toNat ++ bytesBE 2 m.extent

/-- The payload of a CLAIMS frame: sender epoch, sender state, claim bytes (R111). -/
def claimsPayload (epoch : Epoch) (station : StationState) (claims : List HoldRecord) : List Byte :=
  epoch :: byteOf station.code :: claims.map (fun r => byteOf (claimByte r.claim r.reason))

/-- The Z and P_o of a ZERO payload. -/
def parseZero (p : List Byte) : Coord × Nat := (BitVec.ofNat 32 (field p 0 4), field p 4 3)

/-- The claim number, reason and mark reference of a HOLD payload. -/
def parseHold (p : List Byte) : Nat × Reason × Option MarkRef :=
  (byteAt p 0 % 16, reasonOf (byteAt p 0 / 16),
    if (byteAt p 0).testBit 6 then some (byteAt p 1, BitVec.ofNat 16 (field p 2 2)) else none)

/-- The F and set number of a CUTOVER payload. -/
def parseCutover (p : List Byte) : Coord × Nat := (BitVec.ofNat 32 (field p 0 4), field p 4 2)

/-- The content of a MARK payload. -/
def parseMark (p : List Byte) : MarkFrame where
  number := BitVec.ofNat 16 (field p 0 2)
  epoch := p.getD 2 0
  kind := Fin.ofNat 8 (byteAt p 3)
  fresh := (byteAt p 3).testBit 7
  position := BitVec.ofNat 32 (field p 4 4)
  lanes := BitVec.ofNat 16 (field p 8 2)
  extent := field p 10 2

/-- The claims a CLAIMS payload lists: number and reason each. -/
def parseClaims (p : List Byte) : List (Nat × Reason) :=
  (p.drop 2).map (fun b => (b.toNat % 16, reasonOf (b.toNat / 16)))

/-! ### Local frames (R177, R189) -/

/-- The byte that makes the sum of all bytes 0 modulo 256. -/
def checkByte (bytes : List Byte) : Byte := 0 - bytes.foldl (· + ·) 0

/-- A response frame: code echo, status, length, payload, check. -/
def Response.frame (r : Response) : List Byte :=
  let body := r.code :: byteOf r.status.code :: (bytesBE 2 r.payload.length ++ r.payload)
  body ++ [checkByte body]

/-- What an examined request frame gives: a taken request, or none (R179). -/
def examine (bytes : List Byte) : Option (Byte × List Byte) :=
  let len := field bytes 1 2
  if bytes.length < 3 then none
  else if 512 < len then none
  else if bytes.length < 4 + len then none
  else if (bytes.take (4 + len)).foldl (· + ·) 0 = (0 : Byte) then
    some (bytes.headD 0, (bytes.drop 3).take len)
  else none

/-- A request frame, as the local controller builds one (R177). -/
def requestFrame (code : Byte) (payload : List Byte) : List Byte :=
  let body := code :: (bytesBE 2 payload.length ++ payload)
  body ++ [checkByte body]

/-- The request codes of section 10.4. -/
inductive Request
  | configure
  | restart
  | readState
  | readCounters
  | takeNotices
  | readMarks
  | postMark
  | zero
  | readHolds
  | hold
  | release
  | dismiss
  | cutover
  | cancelCutover
  | readRoll
  | freeRoll
  deriving DecidableEq, Repr

def Request.code : Request → Byte
  | .configure => 0x01
  | .restart => 0x02
  | .readState => 0x03
  | .readCounters => 0x04
  | .takeNotices => 0x05
  | .readMarks => 0x10
  | .postMark => 0x11
  | .zero => 0x18
  | .readHolds => 0x20
  | .hold => 0x21
  | .release => 0x22
  | .dismiss => 0x23
  | .cutover => 0x30
  | .cancelCutover => 0x31
  | .readRoll => 0x32
  | .freeRoll => 0x33

/-- The fixed payload length of a request. -/
def Request.length : Request → Nat
  | .configure => 369
  | .restart => 0
  | .readState => 0
  | .readCounters => 0
  | .takeNotices => 1
  | .readMarks => 2
  | .postMark => 14
  | .zero => 4
  | .readHolds => 2
  | .hold => 1
  | .release => 1
  | .dismiss => 1
  | .cutover => 5
  | .cancelCutover => 0
  | .readRoll => 4
  | .freeRoll => 2

/-- Every request of the code list. -/
def Request.list : List Request :=
  [.configure, .restart, .readState, .readCounters, .takeNotices, .readMarks, .postMark, .zero, .readHolds, .hold,
    .release, .dismiss, .cutover, .cancelCutover, .readRoll, .freeRoll]

/-- The status with which the station state refuses a request, or none where it admits it (R166). -/
def Request.refusal (r : Request) (st : StationState) : Option Status :=
  match r, st with
  | .configure, .unconfigured => none
  | .configure, .silent => some .state
  | .configure, _ => some .locked
  | .restart, .unconfigured => some .state
  | .restart, .silent => some .state
  | .restart, _ => none
  | .readState, _ => none
  | .readCounters, _ => none
  | .takeNotices, _ => none
  | .readHolds, .unconfigured => some .state
  | .readHolds, _ => none
  | _, .unconfigured => some .state
  | _, .silent => some .state
  | _, _ => none

end Sys2Proof.Machine
end

