-- ==== Sys2Proof/Machine/Configuration.lean ====
section
/-! DEFINITION. The configuration block: the check of each field in index order and the settings it codes
(R44, R56, R63, R167; 09 section 9.2; 10 section 10.4). -/

namespace Sys2Proof.Machine

/-- A field index with the outcome of its check. -/
abbrev FieldCheck := Nat × Bool

/-- `n` lies in `low` to `high`. -/
def within (low high n : Nat) : Bool := low ≤ n && n ≤ high

/-- Fields 1 to 19. -/
def generalChecks (p : List Byte) : List FieldCheck :=
  [ (1, within 1 24 (byteAt p 0)),
    (2, true),
    (3, within 1 3 (byteAt p 4)),
    (4, within 1 65535 (field p 5 2)),
    (5, within 1 65535 (field p 7 2)),
    (6, within 0 1 (byteAt p 9)),
    (7, true),
    (8, within 1 16 (byteAt p 12)),
    (9, within 0 1 (byteAt p 13)),
    (10, within 0 1 (byteAt p 14)),
    (11, within 0 4 (byteAt p 15)),
    (12, byteAt p 15 == 0 || within 1 65535 (field p 16 2)),
    (13, within 0 2 (byteAt p 18)),
    (14, within 1 65535 (field p 19 2)),
    (15, within 0 15 (byteAt p 21)),
    (16, within 100 1000 (field p 22 2)),
    (17, within 10 1000 (field p 24 2)),
    (18, within 50 2000 (field p 26 2)),
    (19, within 10 250 (byteAt p 28)) ]

/-- Fields 20 to 27: output `n`, from 0. -/
def outputChecks (p : List Byte) (n : Nat) : List FieldCheck :=
  [ (20 + 2 * n, within 0 1 (byteAt p (29 + 2 * n))),
    (21 + 2 * n, within 0 1 (byteAt p (30 + 2 * n))) ]

/-- The function code of sensor `n`, from 0. -/
def functionCode (p : List Byte) (n : Nat) : Nat := byteAt p (42 + 9 * n)

/-- Fields 28 to 47: sensor `n`, from 0 (R63). -/
def sensorChecks (p : List Byte) (n : Nat) : List FieldCheck :=
  [ (28 + 5 * n, within 0 2 (byteAt p (37 + 9 * n))),
    (29 + 5 * n, -100000 ≤ signed32 p (38 + 9 * n) && signed32 p (38 + 9 * n) ≤ 100000),
    (30 + 5 * n, within 0 3 (functionCode p n) && (functionCode p n != 3 || byteAt p 13 == 1)),
    (31 + 5 * n, functionCode p n != 1 || within 0 6 (byteAt p (43 + 9 * n))),
    (32 + 5 * n, functionCode p n != 1 ||
      lanesWithin (byteAt p 12) (BitVec.ofNat 16 (field p (44 + 9 * n) 2))) ]

/-- The parameter of an entry, checked by its type (R44). -/
def parameterOk (p : List Byte) (type : Option ActionType) (param : Nat) : Bool :=
  match type with
  | none => false
  | some .pulse => within 1 4 param
  | some .set => within 1 4 param
  | some .clear => within 1 4 param
  | some .toggle => within 1 4 param
  | some .sight => within 1 4 param && functionCode p (param - 1) == 2
  | some .hold => param == 0
  | some .record => param == 0
  | some .note => param == 0

/-- By extent of an entry: coded 0 or 1, and refused set for PULSE on an MS channel (R44, log 26). -/
def byExtentOk (p : List Byte) (type : Option ActionType) (param ext : Nat) : Bool :=
  within 0 1 ext && !(type == some .pulse && byteAt p (30 + 2 * (param - 1)) == 1 && ext == 1)

/-- Fields 49 + 21k to 68 + 21k: entry `j` of kind `k`, both from 0 (R44). -/
def entryChecks (p : List Byte) (k j : Nat) : List FieldCheck :=
  let at' := 74 + 37 * k + 9 * j
  let index := 49 + 21 * k + 5 * j
  let type := actionTypeOf (byteAt p at')
  let param := byteAt p (at' + 1)
  [ (index, type.isSome),
    (index + 1, parameterOk p type param),
    (index + 2, -1000000 ≤ signed32 p (at' + 2) && signed32 p (at' + 2) ≤ 1000000),
    (index + 3, within 1 65535 (field p (at' + 6) 2)),
    (index + 4, byExtentOk p type param (byteAt p (at' + 8))) ]

/-- Fields 48 + 21k to 68 + 21k: the count of kind `k` and its entries up to the count. -/
def kindChecks (p : List Byte) (k : Nat) : List FieldCheck :=
  (48 + 21 * k, within 0 4 (byteAt p (73 + 37 * k))) ::
    (List.range (min 4 (byteAt p (73 + 37 * k)))).flatMap (entryChecks p k)

/-- Every check of the block, in index order (R167). -/
def fieldChecks (p : List Byte) : List FieldCheck :=
  generalChecks p ++ (List.range 4).flatMap (outputChecks p) ++ (List.range 4).flatMap (sensorChecks p)
    ++ (List.range 8).flatMap (kindChecks p)

/-- The index of the first field that fails, if any (R167). -/
def firstFailing (p : List Byte) : Option Nat :=
  ((fieldChecks p).find? (fun c => !c.2)).map Prod.fst

/-! ### The settings an accepted block codes -/

def levelOf (code : Nat) : Level := if code = 1 then .high else .low

def parseOutput (p : List Byte) (n : Nat) : OutputSettings where
  idle := levelOf (byteAt p (29 + 2 * n))
  unit := if byteAt p (30 + 2 * n) = 1 then .ms else .wu

def parseFunction (p : List Byte) (n : Nat) : SensorFunction :=
  match functionCode p n with
  | 1 => .source (Fin.ofNat 8 (byteAt p (43 + 9 * n))) (BitVec.ofNat 16 (field p (44 + 9 * n) 2))
  | 2 => .sight
  | 3 => .cut
  | _ => .off

def parseSensor (p : List Byte) (n : Nat) : SensorSettings where
  edge := match byteAt p (37 + 9 * n) with
    | 0 => .rising
    | 1 => .falling
    | _ => .both
  offset := signed32 p (38 + 9 * n)
  function := parseFunction p n

def parseEntry (p : List Byte) (k j : Nat) : TableEntry where
  type := (actionTypeOf (byteAt p (74 + 37 * k + 9 * j))).getD .note
  param := paramOf (byteAt p (75 + 37 * k + 9 * j))
  offset := signed32 p (76 + 37 * k + 9 * j)
  width := field p (80 + 37 * k + 9 * j) 2
  byExtent := byteAt p (82 + 37 * k + 9 * j) == 1

/-- The entries of kind `k` up to its count, in order (R43). -/
def parseKind (p : List Byte) (k : Nat) : List TableEntry :=
  (List.range (min 4 (byteAt p (73 + 37 * k)))).map (parseEntry p k)

/-- The settings of a configuration block. -/
def parseSettings (p : List Byte) : Settings where
  station := byteAt p 0
  path := field p 1 3
  busRate := match byteAt p 4 with
    | 1 => .k250
    | 2 => .k500
    | _ => .k1000
  ratioN := field p 5 2
  ratioD := field p 7 2
  sense := if byteAt p 9 = 1 then .inverted else .normal
  reverseAllowance := field p 10 2
  laneCount := byteAt p 12
  rollMap := byteAt p 13 == 1
  followCuts := byteAt p 14 == 1
  cutChannel := paramOf (byteAt p 15)
  cutWidth := field p 16 2
  trimGain := match byteAt p 18 with
    | 0 => .full
    | 1 => .half
    | _ => .quarter
  trimLimit := field p 19 2
  missLimit := byteAt p 21
  refreshPeriod := field p 22 2
  quietInterval := field p 24 2
  joinInterval := field p 26 2
  discardInterval := byteAt p 28
  outputs := ⟨parseOutput p 0, parseOutput p 1, parseOutput p 2, parseOutput p 3⟩
  sensors := ⟨parseSensor p 0, parseSensor p 1, parseSensor p 2, parseSensor p 3⟩
  table := (List.range 8).map (parseKind p)

/-- The action table entries of a kind, in table order (R43). -/
def tableEntries (c : Settings) (kind : MarkKind) : List TableEntry := c.table.getD kind.val []

end Sys2Proof.Machine
end

