-- ==== Sys2Proof/Machine/Flags.lean ====
section
/-! DEFINITION. What the part shows of itself: notices, the last fault record, the lifetime counters and the driven
pins. -/

namespace Sys2Proof.Machine

/-! ### Notices (10, section 10.3) -/

/-- A notice made now: its time stamp, and its coordinate while the station is synchronised (R12). -/
def State.makeNotice (s : State) (kind : NoticeKind) (origin : Option Nat) (number : Option MarkNo)
    (value : Option (BitVec 32)) : Notice where
  kind := kind
  time := s.stc.now
  coord := if s.lcu.synced then some s.lcu.coord else none
  origin := origin
  number := number
  value := value

/-- Append a notice, or drop and count it where the queue holds 32 (R184). -/
def Lpt.place (l : Lpt) (n : Notice) : Lpt :=
  if l.notices.length < 32 then { l with notices := l.notices ++ [n] }
  else { l with lost := holdInc 65535 l.lost }

/-- Place a notice made now (R184). -/
def State.notice (s : State) (kind : NoticeKind) (origin : Option Nat := none) (number : Option MarkNo := none)
    (value : Option (BitVec 32) := none) : State :=
  s.withLpt (s.lpt.place (s.makeNotice kind origin number value))

/-- A notice for a mark: origin and mark number, both absent for BLIND. -/
def State.noticeMark (s : State) (kind : NoticeKind) (mark : Option MarkRef)
    (value : Option (BitVec 32) := none) : State :=
  s.notice kind (mark.map Prod.fst) (mark.map Prod.snd) value

/-- A number as the value of a notice. -/
def valueOf (n : Nat) : Option (BitVec 32) := some (BitVec.ofNat 32 n)

/-- A value with channel, sensor or cause in bits 31 to 30 and a number in bits 29 to 0 (R189). -/
def packTop (top : Nat) (low : BitVec 32) : Option (BitVec 32) :=
  some ((BitVec.ofNat 32 top <<< 30) ||| (low &&& 0x3FFFFFFF#32))

/-- A value with one number in bits 31 to 16 and one in bits 15 to 0 (R189). -/
def packHalves (high low : Nat) : Option (BitVec 32) :=
  some ((BitVec.ofNat 32 high <<< 16) ||| (BitVec.ofNat 32 low &&& 0xFFFF#32))

/-! ### The last fault record and the lifetime counters (R175, R176) -/

/-- Replace the last fault record, with the present time. -/
def State.recordFault (s : State) (kind : FaultKind) (origin : Nat) : State :=
  s.withStc { s.stc with fault := some ⟨kind, s.stc.now, origin⟩ }

/-- The eight lifetime counters, by name. -/
inductive CounterName
  | framesAborted
  | framesDropped
  | receiveErrors
  | inboundOverruns
  | marksSpilled
  | gaps
  | setsLost
  | encoderErrors
  deriving DecidableEq, Repr

/-- One counter, raised by one and holding at 65,535. -/
def Counters.raise (c : Counters) (name : CounterName) : Counters :=
  match name with
  | .framesAborted => { c with framesAborted := holdInc 65535 c.framesAborted }
  | .framesDropped => { c with framesDropped := holdInc 65535 c.framesDropped }
  | .receiveErrors => { c with receiveErrors := holdInc 65535 c.receiveErrors }
  | .inboundOverruns => { c with inboundOverruns := holdInc 65535 c.inboundOverruns }
  | .marksSpilled => { c with marksSpilled := holdInc 65535 c.marksSpilled }
  | .gaps => { c with gaps := holdInc 65535 c.gaps }
  | .setsLost => { c with setsLost := holdInc 65535 c.setsLost }
  | .encoderErrors => { c with encoderErrors := holdInc 65535 c.encoderErrors }

/-- Raise a lifetime counter. -/
def State.count (s : State) (name : CounterName) : State :=
  s.withStc { s.stc with counters := s.stc.counters.raise name }

/-! ### Driven pins -/

/-- RUNOK (R112). -/
def State.runokLevel (s : State) : Level :=
  if s.isActive && s.htu.table.isEmpty then .high else .low

/-- ATTN (R187). -/
def State.attnLevel (s : State) : Level :=
  if s.lpt.notices.isEmpty then .low else .high

/-- The pin of a channel: low while UNCONFIGURED (R47), else its idle or active level by its state (R46). -/
def State.outputLevel (s : State) (n : Fin 4) : Level :=
  if s.configured then
    if (s.aou.channels.get n).state.active then (s.cfg.outputs.get n).idle.flip else (s.cfg.outputs.get n).idle
  else .low

/-- LTX between commands: dominant from the start bit of an attempt (R145), recessive while none is under way
(R140, log 6). -/
def State.ltxLevel (s : State) : LineLevel :=
  if s.lbi.attempt.isSome then .dominant else .recessive

/-- LDO is driven while LCS is low (R177). -/
def State.ldoOn (s : State) : Bool := s.pins.lcs == .low

/-- Drive every output pin from the state, at the end of an event; held low in reset (R173). What an output pin and
RUNOK do within the event stands in `Aou.edges` and `Htu.flashes` (log 6). -/
def State.driven (s : State) : State :=
  if s.live then
    s.withPins { s.pins with
      outputs := ⟨s.outputLevel 0, s.outputLevel 1, s.outputLevel 2, s.outputLevel 3⟩
      ltx := s.ltxLevel
      runok := s.runokLevel
      attn := s.attnLevel
      ldoDriven := s.ldoOn }
  else
    s.withPins { s.pins with
      outputs := .all .low, ltx := .recessive, runok := .low, attn := .low, ldoDriven := s.ldoOn }

/-- The outcome of an event: its effect, with the pins driven from what it leaves. -/
def event (s : State) : Host.Outcome State Fault Refusal := .next s.driven

/-- The outcome of a command whose event cannot arise in the state: nothing happens (log 2). -/
def noEvent (s : State) : Host.Outcome State Fault Refusal := .next s

end Sys2Proof.Machine
end

