-- ==== Sys2Proof/Machine/Outbound.lean ====
section
/-! DEFINITION. The outbound queue: its places, offers to it, and deferred requests (R104, R158, R159, R160). -/

namespace Sys2Proof.Machine

/-- The own claim number a HOLD or RELEASE frame is for. -/
def OutFrame.claim? : OutFrame → Option Nat
  | .hold n _ _ => some n
  | .release n => some n
  | .zero _ _ => none
  | .dismiss _ => none
  | .cutover _ _ => none
  | .mark _ => none
  | .claims => none
  | .census => none

/-- A HOLD or RELEASE frame for claim `n` waits in the queue (R104). -/
def Lbi.waitsFor (l : Lbi) (n : Nat) : Bool := l.urgent.any (fun f => f.claim? == some n)

/-- The frames in the queue, both classes (R158). -/
def Lbi.queued (l : Lbi) : Nat := l.urgent.length + l.normal.length

/-- The reserved places: one for each own claim number without a waiting frame (R158). -/
def Lbi.reserved (l : Lbi) : Nat := ([0, 1, 2, 3].filter (fun n => !l.waitsFor n)).length

/-- An unreserved free place exists (R158). -/
def Lbi.unreservedFree (l : Lbi) : Bool := l.queued + l.reserved < 16

/-- A normal place is free (R158). -/
def Lbi.normalFree (l : Lbi) : Bool := l.unreservedFree && l.normal.length < 12

/-- Offers are accepted: not in OFF or MUTE (R159). -/
def Lbi.accepts (l : Lbi) : Bool := l.mode == .ready || l.mode == .quiet

/-- A frame at the tail of the urgent class. The caller has found its place. -/
def Lbi.queueUrgent (l : Lbi) (f : OutFrame) : Lbi :=
  if l.accepts then { l with urgent := l.urgent ++ [f] } else l

/-- A frame at the tail of the normal class. The caller has found its place. -/
def Lbi.queueNormal (l : Lbi) (f : OutFrame) : Lbi :=
  if l.accepts then { l with normal := l.normal ++ [f] } else l

/-- A HOLD or RELEASE frame for claim `n`: in the place of a waiting one, or at the tail of its class (R104, R158). -/
def Lbi.queueClaim (l : Lbi) (n : Nat) (f : OutFrame) : Lbi :=
  if l.accepts then
    if l.waitsFor n then
      { l with urgent := l.urgent.map (fun g => if g.claim? == some n then f else g) }
    else { l with urgent := l.urgent ++ [f] }
  else l

/-- The frame a deferred request asks for. -/
def DeferredRequest.frame : DeferredRequest → OutFrame
  | .census => .census
  | .claims => .claims

/-- A request for a CENSUS or CLAIMS frame: answered by one that waits, queued, or deferred (R160). -/
def Lbi.request (l : Lbi) (r : DeferredRequest) : Lbi :=
  if !l.accepts then l
  else if l.normal.contains r.frame || l.deferred.contains r then l
  else if l.normalFree then l.queueNormal r.frame
  else { l with deferred := l.deferred ++ [r] }

/-- After an event that took `before` to `l`: where a normal place has become free, the oldest deferred request is
queued (R160). -/
def Lbi.settleDeferred (before l : Lbi) : Lbi :=
  if !before.normalFree && l.normalFree then
    match l.deferred with
    | [] => l
    | r :: rest => { l.queueNormal r.frame with deferred := rest }
  else l

/-- Ask the Line Bus Interface for a CENSUS or CLAIMS frame. -/
def State.request (s : State) (r : DeferredRequest) : State := s.withLbi (s.lbi.request r)

end Sys2Proof.Machine
end

