-- ==== Sys2Proof/Machine/Holds.lean ====
section
/-! DEFINITION. The hold table and this station's own claims (06, sections 6.1 to 6.4). -/

namespace Sys2Proof.Machine

/-- The order of the table: by origin and then claim number (R96). -/
def HoldRecord.key (r : HoldRecord) : Nat := 4 * r.origin + r.claim

/-- The record is that of origin `o` and claim number `n`. -/
def HoldRecord.is (r : HoldRecord) (o n : Nat) : Bool := r.origin == o && r.claim == n

/-- Add a record, or put it in the place of the one with its identity (R96). -/
def putHold (r : HoldRecord) (table : List HoldRecord) : List HoldRecord :=
  insertByKey HoldRecord.key r (table.filter (fun q => !q.is r.origin r.claim))

/-- Remove the record of an identity. -/
def dropHold (o n : Nat) (table : List HoldRecord) : List HoldRecord := table.filter (fun q => !q.is o n)

/-- The record of an identity, if held. -/
def Htu.find (h : Htu) (o n : Nat) : Option HoldRecord := h.table.find? (fun q => q.is o n)

/-- The records of an origin. -/
def Htu.of (h : Htu) (o : Nat) : List HoldRecord := h.table.filter (fun q => q.origin == o)

/-- This station's own claims, in increasing claim number. -/
def State.ownClaims (s : State) : List HoldRecord := s.htu.of s.cfg.station

/-- This station holds its claim `n`. -/
def State.holdsClaim (s : State) (n : Nat) : Bool := (s.htu.find s.cfg.station n).isSome

/-- This station holds its claim `n` with a reason. -/
def State.holdsFor (s : State) (n : Nat) (reason : Reason) : Bool :=
  match s.htu.find s.cfg.station n with
  | some r => r.reason == reason
  | none => false

/-- The last-heard time of an origin becomes the present time (R98 to R100). -/
def Htu.hear (h : Htu) (o : Nat) (now : Time) : Htu :=
  { h with lastHeard := modifyAt (fun _ => some now) (o - 1) h.lastHeard }

/-- The last-heard time of an origin. -/
def Htu.heard (h : Htu) (o : Nat) : Option Time := h.lastHeard.getD (o - 1) none

/-- Make own claim `n`, or change its reason: the record at once, its HOLD frame queued, and the refresh timer
started where it was stopped (R104, R109). -/
def State.makeClaim (s : State) (n : Nat) (reason : Reason) (ref : Option MarkRef) : State :=
  let htu : Htu := { s.htu with
    table := putHold ⟨s.cfg.station, n, reason, ref, false⟩ s.htu.table
    refresh := if s.htu.refresh.isNone && s.onLine then some (s.ahead s.cfg.refreshPeriod) else s.htu.refresh }
  (s.withHtu htu).withLbi (s.lbi.queueClaim n (.hold n reason ref))

/-- Release own claim `n`: the record at once, its RELEASE frame queued, and the tail owed where no own claim is
left (R104, R110). -/
def State.releaseClaim (s : State) (n : Nat) : State :=
  if s.holdsClaim n then
    let table := dropHold s.cfg.station n s.htu.table
    let htu : Htu := { s.htu with
      table := table
      tail := if table.any (fun q => q.origin == s.cfg.station) then s.htu.tail else 3 }
    (s.withHtu htu).withLbi (s.lbi.queueClaim n (.release n))
  else s

/-- The Sensor Capture Unit asks for claim 3 with reason SIGHT (R75, R108). -/
def State.takeSightClaim (s : State) : State :=
  if s.holdsClaim 3 then s else s.makeClaim 3 .sight none

/-- A successful sighting asks for the release of a SIGHT claim (R72, R108). -/
def State.releaseSightClaim (s : State) : State :=
  if s.holdsFor 3 .sight then s.releaseClaim 3 else s

/-- Claim 3 at an entry to JOINING or DESYNC (R92, R108, R169). -/
def State.takeDesyncClaim (s : State) : State :=
  if s.holdsFor 3 .desync then s else s.makeClaim 3 .desync none

/-- Claim 3 at the return to ACTIVE (R94, R108). -/
def State.releaseDesyncClaim (s : State) : State :=
  if s.holdsFor 3 .desync then s.releaseClaim 3 else s

/-- The lowest general claim number not in use (R58). -/
def State.freeClaim (s : State) : Option Nat := [0, 1, 2].find? (fun n => !s.holdsClaim n)

/-- Whether claim number `n` may carry a reason (06, section 6.1). -/
def reasonFits (n : Nat) (reason : Reason) : Bool :=
  match reason with
  | .mark => n < 3
  | .operator => n < 3
  | .desync => n == 3
  | .sight => n == 3

/-- Remove every STALE record of an origin, with CLAIMS DISMISSED where there was one (R102). -/
def State.dismissStale (s : State) (t : Nat) : State :=
  let gone := (s.htu.table.filter (fun q => q.origin == t && q.stale)).length
  let s' := s.withHtu { s.htu with table := s.htu.table.filter (fun q => !(q.origin == t && q.stale)) }
  if gone = 0 then s' else s'.notice .claimsDismissed (some t) none (valueOf gone)

end Sys2Proof.Machine
end

