-- ==== Sys2Proof/Machine/Roll.lean ====
section
/-! DEFINITION. Roll sets: taking entries, moving them between sets and cutting them at a close
(07, sections 7.1 and 7.2). -/

namespace Sys2Proof.Machine

/-- Insert an entry directly after the last entry whose position on roll is not greater than its own (R118). -/
def insertEntry (e : RollEntry) (xs : List RollEntry) : List RollEntry := insertByKey RollEntry.position e xs

/-- Insert an entry before every entry of its position or beyond (R122, carried entries). -/
def insertBefore (e : RollEntry) : List RollEntry → List RollEntry
  | [] => [e]
  | x :: xs => if x.position < e.position then x :: insertBefore e xs else e :: x :: xs

/-- The position on roll of a coordinate in a set starting at `start`; 0 where it lies before the start. -/
def rollPosition (q start : Coord) : Nat := (q - start).toInt.toNat

/-- The coordinate of an entry of a set (07). -/
def RollSet.coordOf (r : RollSet) (e : RollEntry) : Coord := r.start + BitVec.ofNat 32 e.position

/-- The entry with its position recomputed against another start. -/
def RollEntry.moved (e : RollEntry) (fromStart toStart : Coord) : RollEntry :=
  { e with position := rollPosition (fromStart + BitVec.ofNat 32 e.position) toStart }

/-- The drop of an entry at a full set (R119): flag, count, and a notice at the first drop. The first drop is the one
that finds the dropped count 0, whatever a merge back has added to it (log 33). -/
def State.dropEntry (s : State) (r : RollSet) (e : RollEntry) : State × RollSet :=
  (if r.dropped = 0 then s.noticeMark .setOverflow e.mark (valueOf r.number) else s,
    { r with overflow := true, dropped := holdInc 65535 r.dropped })

/-- Put an entry into a set by step 3 of R118, or drop it where the set holds 256 (R119). -/
def State.enter (s : State) (r : RollSet) (e : RollEntry) : State × RollSet :=
  if r.entries.length < 256 then (s, { r with entries := insertEntry e r.entries })
  else s.dropEntry r e

/-- Put entries into a set one after another. -/
def State.enterAll (s : State) (r : RollSet) : List RollEntry → State × RollSet
  | [] => (s, r)
  | e :: es => let (s', r') := s.enter r e; s'.enterAll r' es

/-- Drop entries one after another. -/
def State.dropAll (s : State) (r : RollSet) : List RollEntry → State × RollSet
  | [] => (s, r)
  | e :: es => let (s', r') := s.dropEntry r e; s'.dropAll r' es

/-- What a RECORD action hands over (R59). -/
structure RecordHandoff where
  mark : Option MarkRef
  kind : MarkKind
  lanes : Lanes
  position : Coord
  extent : Nat
  late : Bool
  deriving DecidableEq, Repr

/-- The entry for a hand-off in a set of the given start, clamped where the mark lies before it (R118, step 2). -/
def RecordHandoff.entry (h : RecordHandoff) (start : Coord) : RollEntry where
  mark := h.mark
  kind := h.kind
  lanes := h.lanes
  position := rollPosition h.position start
  extent := h.extent
  late := h.late || (h.position - start).toInt < 0
  splitTail := false
  splitHead := false
  blind := h.kind == 7

/-- The Roll Map Unit takes an entry (R118): into the NEXT set where the current set is CLOSING and the mark is at
its cut or after it, else into the current set. -/
def State.recordEntry (s : State) (h : RecordHandoff) : State :=
  match s.rmu.current with
  | none => s
  | some cur =>
    match cur.cut, s.rmu.next with
    | some cut, some nxt =>
      if h.position == cut || before cut h.position then
        let (s', r) := s.enter nxt (h.entry nxt.start)
        s'.withRmu { s'.rmu with next := some r }
      else
        let (s', r) := s.enter cur (h.entry cur.start)
        s'.withRmu { s'.rmu with current := some r }
    | _, _ =>
      let (s', r) := s.enter cur (h.entry cur.start)
      s'.withRmu { s'.rmu with current := some r }

/-- A set as opened: with the next set number, UNCERTAIN where the station is DESYNC (R117). -/
def State.newSet (s : State) (start : Coord) : RollSet where
  number := s.rmu.nextSet
  start := start
  cut := none
  followed := none
  overflow := false
  uncertain := s.stc.station == .desync
  interrupted := false
  dropped := 0
  entries := []

/-- The next set number advances, wrapping from 65,535 to 1 (R117). -/
def State.useSetNumber (s : State) : State :=
  s.withRmu { s.rmu with nextSet := if s.rmu.nextSet < 65535 then s.rmu.nextSet + 1 else 1 }

/-- Merge the NEXT set back into the current set (R120). A pending read that names it ends (R134). A pending read of the
withdrawn number ends even where a closed set carries that number: the model's choice (log 34). -/
def State.mergeBack (s : State) : State :=
  match s.rmu.current, s.rmu.next with
  | some cur, some nxt =>
    let (s', r) := s.enterAll cur (nxt.entries.map (fun e => e.moved nxt.start cur.start))
    let merged : RollSet := { r with
      cut := none
      followed := none
      uncertain := r.uncertain || nxt.uncertain
      overflow := r.overflow || nxt.overflow
      dropped := holdAdd 65535 r.dropped nxt.dropped }
    s'.withRmu { s'.rmu with
      current := some merged
      next := none
      nextSet := nxt.number
      pendingRead := s'.rmu.pendingRead.filter (fun p => p.1 != nxt.number) }
  | _, _ => s

/-- Move the cut of a CLOSING set to `k`, redistributing the entries of both sets by their coordinates (R121). The
entries that move leave both sets before either receives any (log 16). -/
def State.moveCut (s : State) (cur nxt : RollSet) (k : Coord) : State × RollSet × RollSet :=
  let toCur := nxt.entries.filter (fun e => before (nxt.coordOf e) k)
  let toNxt := cur.entries.filter (fun e => reached (cur.coordOf e) k)
  let keepNxt := nxt.entries.filter (fun e => !before (nxt.coordOf e) k)
  let keepCur := cur.entries.filter (fun e => !reached (cur.coordOf e) k)
  let cur0 : RollSet := { cur with cut := some k, entries := keepCur }
  let nxt0 : RollSet := { nxt with start := k, entries := keepNxt.map (fun e => e.moved nxt.start k) }
  let (s1, cur1) := s.enterAll cur0 (toCur.map (fun e => e.moved nxt.start cur.start))
  let (s2, nxt1) := s1.enterAll nxt0 (toNxt.map (fun e => e.moved cur.start k))
  (s2, cur1, nxt1)

/-- The end length of a set closed at `k`; 1 where `k` is not after the start (R122). -/
def endLength (start k : Coord) : Nat := if before start k then (k - start).toNat else 1

/-- What stays of an entry in a closed set of length `len` (R122). An entry at the cut leaves the set, whatever its
extent (log 29). -/
def keptPart (len : Nat) (e : RollEntry) : Option RollEntry :=
  if len ≤ e.position then none
  else if e.position + e.extent ≤ len then some e
  else some { e with extent := len - e.position, splitTail := true }

/-- What of an entry is carried into the following set (R122). -/
def carriedPart (len : Nat) (e : RollEntry) : Option RollEntry :=
  if len ≤ e.position then some { e with position := e.position - len }
  else if e.position + e.extent ≤ len then none
  else some { e with position := 0, extent := e.position + e.extent - len, splitHead := true, splitTail := false }

/-- Put carried entries into the following set, before its own entries of equal position, dropping those that find
it full (R122, R119). -/
def State.carryInto (s : State) (following : RollSet) (carried : List RollEntry) : State × RollSet :=
  let room := 256 - following.entries.length
  let taken := carried.take room
  (s.dropAll { following with entries := taken.foldr insertBefore following.entries } (carried.drop room))

/-- Close a set at `k` with a following set (R122): the closed record and the following set as it then is. -/
def State.closeAt (s : State) (cur following : RollSet) (k : Coord) : State × ClosedSet × RollSet :=
  let len := endLength cur.start k
  let (s', fol) := s.carryInto following (cur.entries.filterMap (carriedPart len))
  (s', ⟨{ cur with cut := some k, entries := cur.entries.filterMap (keptPart len) }, len, s.lcu.epoch, .none, false⟩,
    fol)

/-- Append a closed set to the closed-set queue, discarding the oldest where it holds 4 (R132). A pending read of its
number ends even where another set carries that number: the model's choice (log 34). -/
def State.appendClosed (s : State) (c : ClosedSet) : State :=
  match s.rmu.closed with
  | oldest :: rest =>
    if 4 ≤ s.rmu.closed.length then
      let s1 := ((s.count .setsLost).recordFault .setLost s.cfg.station).notice .setLost none none
        (packHalves oldest.set.number oldest.read.toNat)
      s1.withRmu { s1.rmu with
        closed := rest ++ [c]
        pendingRead := s1.rmu.pendingRead.filter (fun p => p.1 != oldest.set.number) }
    else s.withRmu { s.rmu with closed := s.rmu.closed ++ [c] }
  | [] => s.withRmu { s.rmu with closed := [c] }

/-- The announcement of a set, queued, dropped, abandoned or sent with its CUTOVER frame (R123, R124). Set numbers wrap
at 65,535 (R117): where several closed sets carry the number, each takes the announcement, which is the model's choice
(log 34). -/
def State.announce (s : State) (number : Nat) (a : Announcement) : State :=
  s.withRmu { s.rmu with
    closed := s.rmu.closed.map (fun c => if c.set.number = number then { c with announcement := a } else c) }

/-- Report a CUTOVER frame as dropped or abandoned; other frames are reported nowhere (R124). -/
def State.reportAbandoned (s : State) (f : OutFrame) : State :=
  match f with
  | .cutover _ number => s.announce number .notSent
  | .zero _ _ => s
  | .hold _ _ _ => s
  | .release _ => s
  | .dismiss _ => s
  | .mark _ => s
  | .claims => s
  | .census => s

end Sys2Proof.Machine
end

