-- ==== Sys2Proof/Machine/Marks.lean ====
section
/-! DEFINITION. The mark queue: making records, offering them, late entry, retirement, the spill record, reports of
ended actions, and own marks (02, sections 2.1 to 2.5). -/

namespace Sys2Proof.Machine

/-- The kind code of BLIND. -/
def blindKind : MarkKind := 7

/-- A mark offered to the queue (R18). -/
structure MarkOffer where
  origin : Nat
  number : Option MarkNo
  kind : MarkKind
  position : Coord
  lanes : Lanes
  extent : Nat
  rebased : Bool
  fresh : Bool
  spill : Bool
  deriving DecidableEq, Repr

/-- Origin and mark number of a mark; none for BLIND. -/
def MarkOffer.ref (o : MarkOffer) : Option MarkRef := o.number.map (fun n => (o.origin, n))

/-- Origin and mark number of a record; none for BLIND. -/
def MarkRecord.ref (r : MarkRecord) : Option MarkRef := r.number.map (fun n => (r.origin, n))

/-- A BLIND mark: origin 0, no mark number, all lanes (R25, R31, log 15). -/
def State.blindOffer (s : State) (position : Coord) (extent : Nat) (spill : Bool) : MarkOffer where
  origin := 0
  number := none
  kind := blindKind
  position := position
  lanes := allLanes s.cfg.laneCount
  extent := extent
  rebased := false
  fresh := false
  spill := spill

/-- The width an action carries (R45). -/
def actionWidth (extent : Nat) (t : TableEntry) : Nat := if t.byExtent then extent + t.width else t.width

/-- The half-window of a SIGHT action of a width (R18). -/
def halfWindow (width : Nat) : Nat := min width 65535

/-- The offset of the sensor a parameter names. -/
def sensorOffsetOf (c : Settings) (p : Option (Fin 4)) : Int :=
  match p with
  | some i => (c.sensors.get i).offset
  | none => 0

/-- The action entry of a table entry for a mark (R18). -/
def makeAction (c : Settings) (position : Coord) (extent : Nat) (t : TableEntry) : Action :=
  let actionPos := position + ofSigned t.offset
  let width := actionWidth extent t
  { type := t.type
    param := t.param
    actionPos := actionPos
    triggerPos :=
      if t.type = .sight then
        actionPos + ofSigned (sensorOffsetOf c t.param) - BitVec.ofNat 32 (halfWindow width)
      else actionPos
    width := width
    state := .pending }

/-- The record of a mark, with its action list (R18). -/
def State.makeRecord (s : State) (o : MarkOffer) : MarkRecord where
  uid := s.mke.nextUid
  origin := o.origin
  number := o.number
  kind := o.kind
  position := o.position
  lanes := o.lanes
  extent := o.extent
  late := false
  rebased := o.rebased
  fresh := o.fresh
  spill := o.spill
  actions := (tableEntries s.cfg o.kind).map (makeAction s.cfg o.position o.extent)

/-- Insert a record directly after the last record whose position is not after its own (R19). -/
def insertRecord (r : MarkRecord) : List MarkRecord → List MarkRecord
  | [] => [r]
  | y :: ys =>
    if (y :: ys).any (fun q => !before r.position q.position) then y :: insertRecord r ys
    else r :: y :: ys

/-! ### Action states and retirement -/

/-- A record with no PENDING or ARMED action (R36). -/
def MarkRecord.finished (r : MarkRecord) : Bool :=
  r.actions.all (fun a => a.state != .pending && a.state != .armed)

/-- Set the state of an action of a record in the queue. -/
def State.setAction (s : State) (uid idx : Nat) (st : ActionState) : State :=
  s.withMke { s.mke with
    queue := s.mke.queue.map (fun r =>
      if r.uid = uid then { r with actions := modifyAt (fun a => { a with state := st }) idx r.actions } else r) }

/-- Examine a record for retirement: where it has finished it leaves the queue, and its spill entry is owed
(R36, R31). -/
def State.examineRecord (s : State) (uid : Nat) : State :=
  if s.mke.queue.any (fun r => r.uid == uid && r.finished) then
    s.withMke { s.mke with
      queue := s.mke.queue.filter (fun r => r.uid != uid)
      retired := s.mke.retired + 1 }
  else s

/-! ### Actions that late entry may fire -/

/-- A HOLD action fires (R58). -/
def State.fireHold (s : State) (r : MarkRecord) (idx : Nat) : State :=
  match s.freeClaim with
  | some n => (s.makeClaim n .mark r.ref).setAction r.uid idx .done
  | none => (s.noticeMark .holdSlotsFull r.ref).setAction r.uid idx .missed

/-- A RECORD action fires (R59). -/
def State.fireRecord (s : State) (r : MarkRecord) (idx : Nat) (late : Bool) : State :=
  let s' := if s.cfg.rollMap then
      s.recordEntry ⟨r.ref, r.kind, r.lanes, r.position, r.extent, late⟩
    else s
  s'.setAction r.uid idx .done

/-- One action of a record that enters late (R35). -/
def State.lateAction (s : State) (r : MarkRecord) (ia : Nat × Action) : State :=
  if reached s.lcu.coord ia.2.triggerPos then
    match ia.2.type with
    | .hold => s.fireHold r ia.1
    | .record => s.fireRecord r ia.1 true
    | .pulse => s.setAction r.uid ia.1 .missed
    | .set => s.setAction r.uid ia.1 .missed
    | .clear => s.setAction r.uid ia.1 .missed
    | .toggle => s.setAction r.uid ia.1 .missed
    | .sight => s.setAction r.uid ia.1 .missed
    | .note => s.setAction r.uid ia.1 .missed
  else s

/-- How many actions of a record have reached trigger positions (R35). -/
def State.reachedActions (s : State) (r : MarkRecord) : Nat :=
  (r.actions.filter (fun a => reached s.lcu.coord a.triggerPos)).length

/-- Place a record in the queue, with late entry where it applies (R19, R35). That MARK LATE stands after the notices
of the late HOLD and RECORD actions is the model's choice (log 30). -/
def State.enterRecord (s : State) (r : MarkRecord) : State :=
  let count := s.reachedActions r
  let placed := s.withMke { s.mke with
    queue := insertRecord { r with late := decide (0 < count) } s.mke.queue
    nextUid := s.mke.nextUid + 1 }
  if count = 0 then placed
  else
    (((numbered 0 r.actions).foldl (fun t ia => t.lateAction r ia) placed).noticeMark .markLate r.ref
      (valueOf count)).examineRecord r.uid

/-! ### The spill record -/

/-- Fold a mark into the spill record (R30). -/
def State.foldSpill (s : State) (ref : Option MarkRef) (q : Coord) (x : Nat) : State :=
  let stop := q + BitVec.ofNat 32 x
  match s.mke.spill with
  | none =>
    ((s.withMke { s.mke with spill := some ⟨q, stop, 1⟩ }).noticeMark .queueSpill ref
      (valueOf s.mke.queue.length)).count .marksSpilled
  | some sp =>
    (s.withMke { s.mke with
      spill := some ⟨earlier sp.low q, later sp.high stop, holdInc 65535 sp.count⟩ }).count .marksSpilled

/-- Where a mark offered to the queue was placed (R27). A repeat has no code there (log 9). -/
inductive Placement
  | queued
  | spilled
  | notQueued
  | clash
  | repeated
  deriving DecidableEq, Repr

/-- A mark that needs no identity check: not queued, folded or entered (R18, R20). -/
def State.admitMark (s : State) (o : MarkOffer) : State × Placement :=
  if (tableEntries s.cfg o.kind).isEmpty then (s, .notQueued)
  else if 64 ≤ s.mke.queue.length then (s.foldSpill o.ref o.position o.extent, .spilled)
  else (s.enterRecord (s.makeRecord o), .queued)

/-- One entry of the spill record, for one retirement (R31). -/
def State.enterSpill (s : State) (sp : Spill) : State :=
  let span := (sp.high - sp.low).toNat
  let rest : Option Spill := if 65535 < span then some { sp with low := sp.low + 65535#32 } else none
  let s' := s.withMke { s.mke with spill := rest, retired := s.mke.retired - 1 }
  (s'.admitMark (s.blindOffer sp.low (min span 65535) true)).1

/-- The spill record enters once for each retirement while it is not empty (R31). -/
def settleLoop : Nat → State → State
  | 0, s => s.withMke { s.mke with retired := 0 }
  | n + 1, s =>
    if s.mke.retired = 0 then s
    else
      match s.mke.spill with
      | none => s.withMke { s.mke with retired := 0 }
      | some sp => settleLoop n (s.enterSpill sp)

/-- Offer the spill record for the retirements of an event that is complete (R31), in SILENT too (log 31). Each round
uses up one part of the spill record, so the rounds allowed are enough. -/
def State.settleSpill (s : State) : State :=
  match s.mke.spill with
  | none => if s.mke.retired = 0 then s else s.withMke { s.mke with retired := 0 }
  | some sp => settleLoop ((sp.high - sp.low).toNat / 65535 + 2) s

/-- Offer a mark that needs no identity check, and then the spill record where the record retired at once. -/
def State.offerPlain (s : State) (o : MarkOffer) : State × Placement :=
  let r := s.admitMark o
  (r.1.settleSpill, r.2)

/-- The held record with the identity of an offered mark (R20). -/
def State.sameIdentity (s : State) (o : MarkOffer) : Option MarkRecord :=
  if validStation o.origin && o.number.isSome then
    s.mke.queue.find? (fun r => r.origin == o.origin && r.number == o.number)
  else none

/-- Offer a mark to the queue: capacity first, then identity (R18, R20). -/
def State.offerMark (s : State) (o : MarkOffer) : State × Placement :=
  if (tableEntries s.cfg o.kind).isEmpty then (s, .notQueued)
  else if 64 ≤ s.mke.queue.length then s.offerPlain o
  else
    match s.sameIdentity o with
    | none => s.offerPlain o
    | some held =>
      if held.kind == o.kind && held.position == o.position && held.lanes == o.lanes && held.extent == o.extent then
        (s.noticeMark .markDuplicate o.ref, .repeated)
      else
        (((s.noticeMark .markClash o.ref).offerPlain (s.blindOffer o.position o.extent false)).1, .clash)

/-! ### Reports of ended actions (R34) -/

/-- An ARMED PULSE action on a channel. -/
def Action.armedOn (a : Action) (ch : Fin 4) : Bool :=
  a.type == .pulse && a.state == .armed && a.param == some ch

/-- The end of a pulse on an MS channel is reported: every ARMED PULSE action on it is DONE, and their records are
examined (R54). The spill entries owed are left to the caller. -/
def State.pulseEnded (s : State) (ch : Fin 4) : State :=
  let uids := (s.mke.queue.filter (fun r => r.actions.any (fun a => a.armedOn ch))).map MarkRecord.uid
  let s' := s.withMke { s.mke with
    queue := s.mke.queue.map (fun r =>
      { r with actions := r.actions.map (fun a => if a.armedOn ch then { a with state := .done } else a) }) }
  uids.foldl (fun t uid => t.examineRecord uid) s'

/-- A window's close is reported: its ARMED action is DONE or MISSED, and its record is examined; a report that
finds none is ignored (R34). The spill entries owed are left to the caller. -/
def State.windowClosed (s : State) (w : Window) (captured : Bool) : State :=
  if s.mke.queue.any (fun r => r.uid == w.owner &&
      (r.actions[w.action]?.any (fun a => a.type == .sight && a.state == .armed))) then
    (s.setAction w.owner w.action (if captured then .done else .missed)).examineRecord w.owner
  else s

/-! ### Own marks (R26 to R29) -/

/-- The MARK frame of an own mark stated now (R26). -/
def State.ownMarkFrame (s : State) (kind : MarkKind) (position : Coord) (lanes : Lanes) (extent : Nat) :
    MarkFrame where
  number := s.mke.nextNumber
  epoch := s.lcu.epoch
  kind := kind
  fresh := s.mke.freshPending
  position := position
  lanes := lanes
  extent := extent

/-- The offer of an own mark (R26). -/
def MarkFrame.ownOffer (m : MarkFrame) (origin : Nat) : MarkOffer where
  origin := origin
  number := some m.number
  kind := m.kind
  position := m.position
  lanes := m.lanes
  extent := m.extent
  rebased := false
  fresh := m.fresh
  spill := false

/-- The number is consumed and the own last posted position moves on (R26, R29). -/
def State.consumeNumber (s : State) (position : Coord) : State :=
  s.withMke { s.mke with
    nextNumber := s.mke.nextNumber + 1
    lastPosted := match s.mke.lastPosted with
      | none => some position
      | some held => some (later held position) }

/-! ### The origin table (R23, R24) -/

/-- The entry of an origin. -/
def Mke.entryOf (m : Mke) (o : Nat) : OriginEntry := m.origins.getD (o - 1) .unknown

/-- Replace the entry of an origin. -/
def State.setOrigin (s : State) (o : Nat) (e : OriginEntry) : State :=
  s.withMke { s.mke with origins := modifyAt (fun _ => e) (o - 1) s.mke.origins }

/-! ### The ZERO shift (R37) -/

def Action.shift (a : Action) (δ : BitVec 32) : Action :=
  { a with actionPos := a.actionPos + δ, triggerPos := a.triggerPos + δ }

def MarkRecord.shift (r : MarkRecord) (δ : BitVec 32) : MarkRecord :=
  { r with position := r.position + δ, actions := r.actions.map (fun a => a.shift δ) }

def OriginEntry.shift (e : OriginEntry) (δ : BitVec 32) : OriginEntry :=
  match e with
  | .unknown => .unknown
  | .tracking n p => .tracking n (p + δ)

def Mke.shift (m : Mke) (δ : BitVec 32) : Mke :=
  { m with
    queue := m.queue.map (fun r => r.shift δ)
    spill := m.spill.map (fun sp => { sp with low := sp.low + δ, high := sp.high + δ })
    origins := m.origins.map (fun e => e.shift δ)
    lastPosted := m.lastPosted.map (fun p => p + δ) }

end Sys2Proof.Machine
end

