-- ==== Sys2Proof/Machine/Outputs.lean ====
section
/-! DEFINITION. The output channels: pulse requests, level requests and ends (R46 to R55, R57). -/

namespace Sys2Proof.Machine

/-- The width unit of a channel. -/
def State.unitOf (s : State) (ch : Fin 4) : WidthUnit := (s.cfg.outputs.get ch).unit

/-- A channel as it stands. -/
def State.channel (s : State) (ch : Fin 4) : Channel := s.aou.channels.get ch

/-- Put a channel into a state with a merge count. The pin changes level, one edge, exactly when the channel passes
between IDLE and either of the other states (R46). -/
def Aou.put (a : Aou) (ch : Fin 4) (state : ChannelState) (merges : Nat) : Aou where
  channels := a.channels.set ch ⟨state, merges⟩
  edges :=
    if (a.channels.get ch).state.active = state.active then a.edges
    else a.edges.set ch (a.edges.get ch + 1)

/-- Put a channel into a state with a merge count. -/
def State.setChannel (s : State) (ch : Fin 4) (state : ChannelState) (merges : Nat) : State :=
  s.withAou (s.aou.put ch state merges)

/-- Every channel becomes IDLE, with its merge count 0; the pin of one that was active goes to its idle level
(R61, R62). -/
def Aou.idled (a : Aou) : Aou := fourIndices.foldl (fun b ch => b.put ch .idle 0) a

/-- The pins take their idle levels as CONFIGURE is accepted: that of a channel of idle level HIGH rises (R47). -/
def Aou.released (a : Aou) (outputs : Four OutputSettings) : Aou :=
  let risen := fun (ch : Fin 4) =>
    match (outputs.get ch).idle with
    | .high => a.edges.get ch + 1
    | .low => a.edges.get ch
  { a with edges := ⟨risen 0, risen 1, risen 2, risen 3⟩ }

/-- The channel enters IDLE; the merge count becomes 0 (R46). -/
def State.idleChannel (s : State) (ch : Fin 4) : State := s.setChannel ch .idle 0

/-- Report the end of a pulse where the channel is an MS channel (R54). -/
def State.reportEnd (s : State) (ch : Fin 4) : State :=
  match s.unitOf ch with
  | .ms => s.pulseEnded ch
  | .wu => s

/-- The end of a pulse with a base position and a width (R48). -/
def State.pulseStop (s : State) (ch : Fin 4) (base : Coord) (width : Nat) : BitVec 32 :=
  match s.unitOf ch with
  | .wu => base + BitVec.ofNat 32 width
  | .ms => s.ahead width

/-- A pulse request at a channel (R48, R49, R50). `mark` is that of the action's record; the spill entries owed
after a report are left to the caller. -/
def State.pulseRequest (s : State) (ch : Fin 4) (base : Coord) (width : Nat) (mark : Option MarkRef) : State :=
  let stop := s.pulseStop ch base width
  let merges := (s.channel ch).merges
  match (s.channel ch).state with
  | .idle =>
    if s.unitOf ch = .wu && reached s.lcu.coord stop then
      s.noticeMark .outputSkipped mark (packTop ch.val stop)
    else s.setChannel ch (.pulsing stop) 0
  | .pulsing held =>
    (s.setChannel ch (.pulsing (later held stop)) (holdInc 255 merges)).noticeMark .outputMerged mark
      (packTop ch.val (BitVec.ofNat 32 (holdInc 255 merges)))
  | .latched =>
    ((s.setChannel ch .latched (holdInc 255 merges)).noticeMark .outputMerged mark
      (packTop ch.val (BitVec.ofNat 32 (holdInc 255 merges)))).reportEnd ch

/-- SET (R51). -/
def State.setLevel (s : State) (ch : Fin 4) : State :=
  match (s.channel ch).state with
  | .idle => s.setChannel ch .latched (s.channel ch).merges
  | .pulsing _ => (s.setChannel ch .latched (s.channel ch).merges).reportEnd ch
  | .latched => s

/-- CLEAR (R51). -/
def State.clearLevel (s : State) (ch : Fin 4) : State :=
  match (s.channel ch).state with
  | .idle => s
  | .pulsing _ => (s.idleChannel ch).reportEnd ch
  | .latched => s.idleChannel ch

/-- TOGGLE (R51). -/
def State.toggleLevel (s : State) (ch : Fin 4) : State :=
  match (s.channel ch).state with
  | .idle => s.setChannel ch .latched (s.channel ch).merges
  | .pulsing _ => (s.idleChannel ch).reportEnd ch
  | .latched => s.idleChannel ch

/-- The channel is a WU channel whose pulse end a forward movement reaches (R52). -/
def State.wuEndReached (s : State) (ch : Fin 4) (a b : Coord) : Bool :=
  match s.unitOf ch, (s.channel ch).state with
  | .wu, .pulsing stop => reaches a b stop
  | _, _ => false

/-- The Action Output Unit takes a movement (R52). -/
def State.aouMove (s : State) (a b : Coord) : State :=
  fourIndices.foldl (fun t ch => if t.wuEndReached ch a b then t.idleChannel ch else t) s

/-- The channel is an MS channel whose pulse end the time has reached (R53). -/
def State.msEndReached (s : State) (ch : Fin 4) : Bool :=
  match s.unitOf ch, (s.channel ch).state with
  | .ms, .pulsing stop => reached s.stc.now stop
  | _, _ => false

/-- A cut pulse request carrying the cut coordinate of a close (R57); the spill entries owed after a report are
offered. -/
def State.cutPulse (s : State) (k : Coord) : State :=
  match s.cfg.cutChannel with
  | some ch => (s.pulseRequest ch k s.cfg.cutWidth none).settleSpill
  | none => s

/-- A ZERO shift at a channel: the end of a PULSING WU channel (R62). -/
def Channel.shift (c : Channel) (unit : WidthUnit) (δ : BitVec 32) : Channel :=
  match unit, c.state with
  | .wu, .pulsing stop => { c with state := .pulsing (stop + δ) }
  | _, _ => c

/-- A ZERO shift at the Action Output Unit (R62, R85). -/
def State.shiftAou (s : State) (δ : BitVec 32) : State :=
  s.withAou { s.aou with channels :=
    ⟨(s.channel 0).shift (s.unitOf 0) δ, (s.channel 1).shift (s.unitOf 1) δ,
     (s.channel 2).shift (s.unitOf 2) δ, (s.channel 3).shift (s.unitOf 3) δ⟩ }

end Sys2Proof.Machine
end

