-- ==== Sys2Proof/Machine/Sensors.lean ====
section
/-! DEFINITION. Sighting windows: opening, closing as a miss, and the capture error (R68 to R75). -/

namespace Sys2Proof.Machine

/-- Replace the window list of a sensor. -/
def State.setWindows (s : State) (n : Fin 4) (ws : List Window) : State :=
  s.withScu { s.scu with windows := s.scu.windows.set n ws }

/-- Remove a window from the list of its sensor; its owning action names it (R69). -/
def State.removeWindow (s : State) (n : Fin 4) (w : Window) : State :=
  s.setWindows n ((s.scu.windows.get n).filter (fun v => !(v.owner == w.owner && v.action == w.action)))

/-- The miss count rises, SIGHT MISSED is placed, and claim 3 is asked for at the miss limit (R73, R75). -/
def State.countMiss (s : State) (n : Fin 4) (w : Window) : State :=
  let misses := holdInc 255 s.scu.misses
  let s1 := (s.withScu { s.scu with misses := misses }).noticeMark .sightMissed w.mark
    (packTop n.val (BitVec.ofNat 32 misses))
  if misses = s.cfg.missLimit && s.scu.misses < misses then s1.takeSightClaim else s1

/-- The window record a fired SIGHT action makes (R68). -/
def State.makeWindow (s : State) (n : Fin 4) (r : MarkRecord) (idx : Nat) (a : Action) : Window :=
  let centre := a.actionPos + ofSigned (s.cfg.sensors.get n).offset
  { centre := centre
    half := halfWindow a.width
    close := centre + BitVec.ofNat 32 (halfWindow a.width)
    owner := r.uid
    action := idx
    mark := r.ref }

/-- The Sensor Capture Unit takes a fired SIGHT action, ARMED by now: the window opens, or closes at once as a miss
where its close is already reached (R68). The spill entries owed are left to the caller, so that SIGHT MISSED stands
before their notices (log 30). -/
def State.openWindow (s : State) (n : Fin 4) (w : Window) : State :=
  if reached s.lcu.coord w.close then (s.windowClosed w false).countMiss n w
  else s.setWindows n (s.scu.windows.get n ++ [w])

/-- An open window is closed as a miss by a movement (R73). That the spill entry of the retirement
stands before SIGHT MISSED is the model's choice (log 30). -/
def State.missWindow (s : State) (nw : Fin 4 × Window) : State :=
  (((s.removeWindow nw.1 nw.2).windowClosed nw.2 false).settleSpill).countMiss nw.1 nw.2

/-- The windows of all sensors, by place in their lists and then by sensor number (R73, log 24). -/
def State.allWindows (s : State) : List (Fin 4 × Window) :=
  let tagged := fourIndices.flatMap (fun n => (numbered 0 (s.scu.windows.get n)).map (fun iw => (iw.1, n, iw.2)))
  (sortByKey (fun t => t.1) tagged).map (fun t => (t.2.1, t.2.2))

/-- The windows a movement closes, in the order of R73. -/
def State.windowsReached (s : State) (a b : Coord) : List (Fin 4 × Window) :=
  sortByKey (fun nw => (nw.2.close - a).toNat) (s.allWindows.filter (fun nw => reaches a b nw.2.close))

/-- The Sensor Capture Unit takes a movement (R73). -/
def State.scuMove (s : State) (a b : Coord) : State :=
  (s.windowsReached a b).foldl (fun t nw => t.missWindow nw) s

/-- The window an edge is taken for: the earliest close, the first in the list among equals (R70). -/
def servedWindow : List Window → Option Window
  | [] => none
  | w :: ws =>
    match servedWindow ws with
    | none => some w
    | some v => if before v.close w.close then some v else some w

/-- The trim for a capture error: −(e × g), rounded toward zero (R72). -/
def trimOf (gain : TrimGain) (e : Int) : Int :=
  match gain with
  | .full => -e
  | .half => -(Int.tdiv e 2)
  | .quarter => -(Int.tdiv e 4)

/-- A capture error as TRIM LIMIT carries it, holding at the ends of 30 bits (R189). -/
def clampError (e : Int) : Int := max (-536870912) (min 536870911 e)

/-- A ZERO shift at the Sensor Capture Unit (R77). -/
def Window.shift (w : Window) (δ : BitVec 32) : Window :=
  { w with centre := w.centre + δ, close := w.close + δ }

def Scu.shift (x : Scu) (δ : BitVec 32) : Scu :=
  { x with
    windows := x.windows.map (fun ws => ws.map (fun w => w.shift δ))
    captures := x.captures.map (fun c => c.map (fun ct => (ct.1 + δ, ct.2))) }

/-- The level change is an edge that the setting names (R64). -/
def edgeNamed (setting : EdgeSetting) (held new : Level) : Bool :=
  match setting, held, new with
  | .rising, .low, .high => true
  | .falling, .high, .low => true
  | .both, .low, .high => true
  | .both, .high, .low => true
  | _, _, _ => false

end Sys2Proof.Machine
end

