-- ==== Sys2Proof/Machine/Cutover.lean ====
section
/-! DEFINITION. Closing roll sets: what follows a close, and the cuts that lead to one (07, section 7.3). -/

namespace Sys2Proof.Machine

/-- The value of SET CLOSED (R189). -/
def setClosedValue (c : ClosedSet) : Option (BitVec 32) :=
  packHalves c.set.number (min 65535 (c.endLength / 10000))

/-- The origin of SET CLOSED: this station, or the cut source's origin (R123, step 5). -/
def State.closeOrigin (s : State) (c : ClosedSet) : Nat :=
  match c.set.followed with
  | some (o, _) => o
  | none => s.cfg.station

/-- The announcement of a close (R123, step 4). -/
def State.announceClose (s : State) (number : Nat) (k : Coord) (own : Bool) : State :=
  if own && s.isActive then
    if s.lbi.normalFree then
      (s.withLbi (s.lbi.queueNormal (.cutover k number))).announce number .queued
    else (s.announce number .notSent).notice .cutNotSent none none (valueOf number)
  else s

/-- The closed set goes to the closed-set queue and the following set becomes current (R123, steps 1 and 2). -/
def State.replaceCurrent (s : State) (c : ClosedSet) (following : RollSet) : State :=
  let s1 := s.appendClosed c
  s1.withRmu { s1.rmu with current := some following, next := none }

/-- Close the current set at `k` and do what follows a close (R122, R123). That the notice of the cut pulse stands
before CUT NOT SENT and SET CLOSED is the model's choice (log 30). -/
def State.closeSet (s : State) (cur following : RollSet) (k : Coord) (own : Bool) : State :=
  let (s1, c, fol) := s.closeAt cur following k
  ((((s1.replaceCurrent c fol).cutPulse k).announceClose c.set.number k own).notice .setClosed
    (some (s.closeOrigin c)) none (setClosedValue c))

/-- Open a new set at `k` and close the current set there (R128, R129, R130). -/
def State.closeWithNew (s : State) (cur : RollSet) (k : Coord) (own : Bool) : State :=
  s.useSetNumber.closeSet cur (s.newSet k) k own

/-- Move the cut of a CLOSING set to `k` and close it there (R129, R130). -/
def State.closeMoved (s : State) (cur nxt : RollSet) (k : Coord) (own : Bool) : State :=
  let (s1, cur1, nxt1) := s.moveCut cur nxt k
  s1.closeSet cur1 nxt1 k own

/-- Make the current set CLOSING with a cut, and open its NEXT set (R126, R130). -/
def State.planCut (s : State) (cur : RollSet) (k : Coord) : State :=
  let nxt := s.newSet k
  let s1 := s.useSetNumber
  s1.withRmu { s1.rmu with current := some { cur with cut := some k }, next := some nxt }

/-- The Roll Map Unit takes a movement: a CLOSING set whose cut it reaches completes (R127). -/
def State.rmuMove (s : State) (a b : Coord) : State :=
  match s.rmu.current, s.rmu.next with
  | some cur, some nxt =>
    match cur.cut with
    | some k => if reaches a b k then s.closeSet cur nxt k cur.followed.isNone else s
    | none => s
  | _, _ => s

/-- A cut request that changes no set (R129, R130); cause 1 is a sensor, 2 a followed frame. -/
def State.cutIgnored (s : State) (origin cause : Nat) (k : Coord) : State :=
  s.notice .cutIgnored (some origin) none (packTop cause k)

/-- A cut request from a CUT sensor (R129). -/
def State.sensorCut (s : State) (c : Coord) : State :=
  match s.rmu.current with
  | none => s
  | some cur =>
    if before cur.start c then
      match cur.cut, s.rmu.next with
      | some _, some nxt => s.closeMoved { cur with followed := none } nxt c true
      | _, _ => s.closeWithNew cur c true
    else s.cutIgnored s.cfg.station 1 c

/-- A CUTOVER frame that is followed acts on the current set (R130). -/
def State.followCut (s : State) (f : Coord) (source : Nat × Nat) : State :=
  match s.rmu.current with
  | none => s
  | some cur =>
    if before cur.start f then
      let cur' : RollSet := { cur with followed := some source }
      match cur.cut, s.rmu.next with
      | some _, some nxt =>
        if reached s.lcu.coord f then s.closeMoved cur' nxt f false
        else
          let (s1, cur1, nxt1) := s.moveCut cur' nxt f
          s1.withRmu { s1.rmu with current := some cur1, next := some nxt1 }
      | _, _ =>
        if reached s.lcu.coord f then s.closeWithNew cur' f false else s.planCut cur' f
    else s.cutIgnored source.1 2 f

/-- A ZERO shift at the Roll Map Unit: the starts and the cut (R136). -/
def Rmu.shift (r : Rmu) (δ : BitVec 32) : Rmu :=
  { r with
    current := r.current.map (fun c => { c with start := c.start + δ, cut := c.cut.map (fun k => k + δ) })
    next := r.next.map (fun c => { c with start := c.start + δ }) }

/-- The sets at an entry to DESYNC (R136). -/
def Rmu.markUncertain (r : Rmu) : Rmu :=
  { r with
    current := r.current.map (fun c => { c with uncertain := true })
    next := r.next.map (fun c => { c with uncertain := true }) }

end Sys2Proof.Machine
end

