-- ==== Sys2Proof/Machine/Movement.lean ====
section
/-! DEFINITION. Movements of the coordinate: firing in the Mark Engine, and the blocks that take a movement
(R6, R32, R33). -/

namespace Sys2Proof.Machine

/-- A fired action is handed to its block and takes its state (R33); the record is `r`, the action its `idx`-th. -/
def State.handOver (s : State) (r : MarkRecord) (idx : Nat) (a : Action) : State :=
  match a.type, a.param with
  | .pulse, some ch =>
    match s.unitOf ch with
    | .wu => (s.pulseRequest ch a.actionPos a.width r.ref).setAction r.uid idx .done
    | .ms => (s.setAction r.uid idx .armed).pulseRequest ch a.actionPos a.width r.ref
  | .set, some ch => (s.setLevel ch).setAction r.uid idx .done
  | .clear, some ch => (s.clearLevel ch).setAction r.uid idx .done
  | .toggle, some ch => (s.toggleLevel ch).setAction r.uid idx .done
  | .hold, _ => s.fireHold r idx
  | .sight, some n => (s.setAction r.uid idx .armed).openWindow n (s.makeWindow n r idx a)
  | .record, _ => s.fireRecord r idx false
  | .note, _ => (s.noticeMark .markArrived r.ref (some a.actionPos)).setAction r.uid idx .done
  | .pulse, none => s.setAction r.uid idx .done
  | .set, none => s.setAction r.uid idx .done
  | .clear, none => s.setAction r.uid idx .done
  | .toggle, none => s.setAction r.uid idx .done
  | .sight, none => s.setAction r.uid idx .done

/-- Fire one action of the queue, by its record's name and its place, where it is still PENDING (R32). -/
def State.fireAction (s : State) (uid idx : Nat) : State :=
  match s.mke.queue.find? (fun r => r.uid == uid) with
  | none => s
  | some r =>
    match r.actions[idx]? with
    | none => s
    | some a => if a.state = .pending then (s.handOver r idx a).examineRecord uid else s

/-- An action a movement fires: the distance of its trigger position, its record's name and its place (R32). -/
structure Firing where
  distance : Nat
  uid : Nat
  idx : Nat
  deriving DecidableEq, Repr

/-- The PENDING actions of a record that a movement reaches, in list order. -/
def MarkRecord.firings (r : MarkRecord) (a b : Coord) : List Firing :=
  ((numbered 0 r.actions).filter (fun ia => ia.2.state == .pending && reaches a b ia.2.triggerPos)).map
    (fun ia => ⟨(ia.2.triggerPos - a).toNat, r.uid, ia.1⟩)

/-- The actions a movement fires, in the firing order of R32. -/
def State.firings (s : State) (a b : Coord) : List Firing :=
  sortByKey Firing.distance (s.mke.queue.flatMap (fun r => r.firings a b))

/-- The Mark Engine takes a movement: it fires what the movement reaches, and then the spill record enters for the
retirements (R31, R32). -/
def State.mkeMove (s : State) (a b : Coord) : State :=
  ((s.firings a b).foldl (fun t f => t.fireAction f.uid f.idx) s).settleSpill

/-- One block takes a forward movement (R6). -/
def State.blockMove (s : State) (a b : Coord) (block : MoveBlock) : State :=
  match block with
  | .mke => s.mkeMove a b
  | .scu => s.scuMove a b
  | .aou => s.aouMove a b
  | .rmu => s.rmuMove a b

/-- Every block once: in the order given, then those it leaves out (log 7). -/
def fullOrder (order : List MoveBlock) : List MoveBlock :=
  (order ++ [MoveBlock.mke, MoveBlock.scu, MoveBlock.aou, MoveBlock.rmu]).foldl
    (fun acc b => if acc.contains b then acc else acc ++ [b]) []

/-- The coordinate has moved from `a` to where it stands: a forward movement is handed to each block, a backward one
reaches nothing (R6). At an output channel each block's part is an event of its own: where the Action Output Unit comes
before the Mark Engine, a pulse that ends and starts again makes its two edges (R46, R55). -/
def State.movedFrom (s : State) (a : Coord) (order : List MoveBlock) : State :=
  if before a s.lcu.coord then
    (fullOrder order).foldl (fun t block => t.blockMove a s.lcu.coord block) s
  else s

end Sys2Proof.Machine
end

