-- ==== Sys2Proof/Machine/Station.lean ====
section
/-! DEFINITION. Changes of the station state and the ZERO shift: what every block does in one event
(R84 to R87, R90, R92, R94, R162, R169, R171). -/

namespace Sys2Proof.Machine

/-- The station state becomes another. -/
def State.setStation (s : State) (st : StationState) : State := s.withStc { s.stc with station := st }

/-- Two effects of one event, in the order given: what two blocks place together is appended in either order
(R184, log 8). -/
def inOrder (o : NoticeOrder) (f g : State → State) (s : State) : State :=
  match o with
  | .listed => g (f s)
  | .reversed => f (g s)

/-! ### Entry to DESYNC (R92) -/

/-- The Mark Engine at an entry to DESYNC, with QUEUE EMPTIED (R38). -/
def State.emptyQueue (s : State) : State :=
  let count := s.mke.queue.length + (match s.mke.spill with | some sp => sp.count | none => 0)
  (s.withMke { s.mke with
    queue := []
    spill := none
    origins := List.replicate 24 .unknown }).notice .queueEmptied none none (valueOf count)

/-- The Sensor Capture Unit at an entry to DESYNC (R78). Its reports find no record. -/
def Scu.desync (x : Scu) : Scu :=
  { x with windows := .all [], misses := 0, captures := .all none }

/-- The part of an entry to DESYNC that places no notice, but for the synchronised flag: station state, sensors,
outputs, roll sets, claim 3 and CENSUS (R92). The reports of R54 and R78 find no record and are left out. -/
def State.desyncBlocks (s : State) : State :=
  let s1 := s.setStation .desync
  let s2 := s1.withScu s1.scu.desync
  let s3 := s2.withAou s2.aou.idled
  let s4 := s3.withRmu s3.rmu.markUncertain
  (s4.takeDesyncClaim).request .census

/-- The synchronised flag is cleared. It goes last in its event, so that every notice of the event carries the
coordinate as R12 says. -/
def State.clearSync (s : State) : State := s.withLcu { s.lcu with synced := false }

/-- Entry to DESYNC with a notice of another block beside QUEUE EMPTIED (R91, R92, R184). -/
def State.enterDesync (s : State) (o : NoticeOrder) (cause : State → State) : State :=
  (inOrder o cause State.emptyQueue s).desyncBlocks

/-- Notice and fault record of a missed ZERO (R91). -/
def State.epochAhead (s : State) (origin : Nat) (number : Option MarkNo) (d : Nat) : State :=
  (s.notice .epochAhead (some origin) number (valueOf d)).recordFault .epochAhead origin

/-- The epoch difference (e − E) mod 256 (00, Epoch). -/
def State.epochDiff (s : State) (e : Epoch) : Nat := (e - s.lcu.epoch).toNat

/-! ### Return to ACTIVE (R94) -/

/-- The station becomes ACTIVE and its DESYNC claim is released. -/
def State.becomeActive (s : State) : State := (s.setStation .active).releaseDesyncClaim

/-! ### The ZERO shift (R13, R84 to R87) -/

/-- The travel since a captured raw count, and the remainder left (R13). -/
def State.travel (s : State) (captured : BitVec 32) : Int × Nat :=
  let c := (s.lcu.raw - captured).toInt
  let t := Int.fdiv (c * s.cfg.ratioN) s.cfg.ratioD
  (t, (c * s.cfg.ratioN - s.cfg.ratioD * t).toNat)

/-- The target of a ZERO: the coordinate of the point that stood at this station's reference line at the frame end
(R84, step 3). -/
def State.zeroTarget (s : State) (z : Coord) (path : Nat) : Coord :=
  z - ofSigned ((s.cfg.path : Int) - path)

/-- The shift δ of a ZERO (R84, step 5). -/
def State.zeroDelta (s : State) (z : Coord) (path : Nat) (captured : BitVec 32) : BitVec 32 :=
  s.zeroTarget z path - (s.lcu.coord - ofSigned (s.travel captured).1)

/-- An outbound frame across a ZERO: a CUTOVER's cut coordinate is shifted (R86). -/
def OutFrame.shift (f : OutFrame) (δ : BitVec 32) : OutFrame :=
  match f with
  | .cutover cut n => .cutover (cut + δ) n
  | .zero z p => .zero z p
  | .hold n r m => .hold n r m
  | .release n => .release n
  | .dismiss t => .dismiss t
  | .mark m => .mark m
  | .claims => .claims
  | .census => .census

/-- The frames waiting and in the slot across a ZERO; an attempt under way keeps its bits (R86). -/
def Lbi.shift (l : Lbi) (δ : BitVec 32) : Lbi :=
  { l with
    normal := l.normal.map (fun f => f.shift δ)
    slot := l.slot.map (fun x => { x with frame := x.frame.shift δ }) }

/-- Every position the blocks store is shifted by δ (R85). -/
def State.shiftPositions (s : State) (δ : BitVec 32) : State :=
  let s1 := s.withMke (s.mke.shift δ)
  let s2 := s1.withScu (s1.scu.shift δ)
  let s3 := s2.shiftAou δ
  let s4 := s3.withRmu (s3.rmu.shift δ)
  s4.withLbi (s4.lbi.shift δ)

/-- The Length Counting Unit's part of a ZERO (R9, R84, R87, R90). -/
def State.zeroLcu (s : State) (δ : BitVec 32) (remainder : Nat) : State :=
  s.withLcu { s.lcu with
    coord := s.lcu.coord + δ
    remainder := remainder
    epoch := s.lcu.epoch + 1
    deltaPrev := some δ
    synced := true
    joinSync := if s.stc.station = .joining then .zeroed else s.lcu.joinSync }

/-- A ZERO is applied (R84 to R87), and DESYNC is left (R94). -/
def State.applyZero (s : State) (origin : Nat) (z : Coord) (path : Nat) (captured : BitVec 32) : State :=
  let δ := s.zeroDelta z path captured
  let s1 := ((s.shiftPositions δ).zeroLcu δ (s.travel captured).2).notice .zeroApplied (some origin) none (some δ)
  if s1.stc.station = .desync then s1.becomeActive else s1

/-! ### Entry to JOINING (R169) -/

/-- The station enters JOINING: join timer, join sync, CENSUS, claim 3 and the CLAIMS report (R169, R114). -/
def State.enterJoining (s : State) : State :=
  let s1 := s.withStc { s.stc with station := .joining, join := some (s.ahead s.cfg.joinInterval) }
  let s2 := s1.withLcu { s1.lcu with joinSync := .adopting }
  ((s2.request .census).takeDesyncClaim).request .claims

/-! ### Entry to SILENT (R162, R171) -/

/-- The frames of the outbound queue and the send slot (R162, R163). -/
def Lbi.outbound (l : Lbi) : List OutFrame :=
  l.urgent ++ l.normal ++ (match l.slot with | some x => [x.frame] | none => [])

/-- The Line Bus Interface at an entry to SILENT (R162). -/
def State.discardOutbound (s : State) : State :=
  let s1 := s.lbi.outbound.foldl (fun t f => t.reportAbandoned f) s
  (s1.withLbi { s1.lbi with
    urgent := []
    normal := []
    slot := none
    attempt := none
    deferred := []
    quiet := none
    yieldPending := false
    mode := .mute }).notice .outboundDiscarded none none (valueOf s.lbi.outbound.length)

/-- Notice and fault record of a duplicate station (R171). -/
def State.duplicateFound (s : State) (kind : FrameKind) : State :=
  (s.recordFault .duplicateStation s.cfg.station).notice .duplicateStation (some s.cfg.station) none
    (valueOf kind.byte)

/-- The station enters SILENT (R171, R114, R162). -/
def State.enterSilent (s : State) (o : NoticeOrder) (kind : FrameKind) : State :=
  let s1 := s.withStc { s.stc with station := .silent, join := none }
  let s2 := s1.withHtu { s1.htu with refresh := none, tail := 0 }
  inOrder o (fun t => t.duplicateFound kind) State.discardOutbound s2

/-! ### The warm reset (R172) -/

/-- The Mark Engine after a warm reset (R41). The model's own counters go on. -/
def Mke.warm (m : Mke) : Mke :=
  { Mke.cold with nextUid := m.nextUid, freeUsed := m.freeUsed }

/-- The Sensor Capture Unit after a warm reset (R80). -/
def Scu.warm (x : Scu) : Scu := { Scu.cold with filtered := x.filtered }

/-- The Length Counting Unit after a warm reset (R16). -/
def Lcu.warm (l : Lcu) : Lcu :=
  { Lcu.cold with
    levels := l.levels
    raw := l.raw
    epoch := l.epoch
    joinSync := l.joinSync
    encoderOutstanding := l.encoderOutstanding }

/-- The Line Bus Interface after a warm reset (R163). -/
def Lbi.warm (_l : Lbi) : Lbi := { Lbi.cold with mode := .ready }

/-- The Hold Table Unit after a warm reset (R116). The model's own count goes on. -/
def Htu.warm (h : Htu) : Htu := { Htu.cold with flashes := h.flashes }

/-- A CUTOVER removed from the loopback is reported abandoned (R163). -/
def State.abandonLoopback (s : State) : State :=
  match s.lbi.loopback with
  | some lb =>
    match lb.frame.kind with
    | .cutover => s.announce (parseCutover lb.frame.payload).2 .notSent
    | .zero => s
    | .hold => s
    | .release => s
    | .dismiss => s
    | .mark => s
    | .claims => s
    | .census => s
  | none => s

/-- The set being wound is closed as INTERRUPTED and a fresh one opened at 0 (R139). A cut pulse is asked for on an
MS cut channel alone; no frame is offered. -/
def State.interruptSet (s : State) : State :=
  let s0 := s.mergeBack
  match s0.rmu.current with
  | none => s0
  | some cur =>
    let (s1, c, fol) := s0.useSetNumber.closeAt { cur with interrupted := true } (s0.newSet 0) s0.lcu.coord
    let s2 := s1.replaceCurrent c fol
    let s3 := match s2.cfg.cutChannel with
      | some ch => if s2.unitOf ch = WidthUnit.ms then s2.cutPulse s0.lcu.coord else s2
      | none => s2
    let s4 := s3.notice .setClosed (some s3.cfg.station) none (setClosedValue c)
    s4.withRmu { s4.rmu with pendingRead := none }

/-- Every block makes its warm reset; the Length Counting Unit goes last, so that the notices of the event carry
the coordinate as R12 says (R172, log 27). -/
def State.warmReset (s : State) : State :=
  let s1 := s.withMke s.mke.warm
  let s2 := s1.withScu s1.scu.warm
  let s3 := (s2.withAou s2.aou.idled).interruptSet
  let s4 := (s3.lbi.outbound.foldl (fun t f => t.reportAbandoned f) s3).abandonLoopback
  let s5 := s4.withLbi s4.lbi.warm
  let s6 := s5.withHtu s5.htu.warm
  s6.withLcu s6.lcu.warm

end Sys2Proof.Machine
end

