-- ==== Sys2Proof/Machine/Bus.lean ====
section
/-! DEFINITION. Commands of the line: LINE_IDLE, YIELD_GAP_END, ATTEMPT_START, ARBITRATION_LOST, FRAME_ABORTED,
OWN_FRAME_END, RECEIVE_ERROR, VALID_FRAME_END and START_BIT_READ (08). -/

namespace Sys2Proof.Machine

/-- The part reads the line: not held in reset, and not in send mode OFF (R140). -/
def State.reading (s : State) : Bool := s.live && s.lbi.mode != .off

/-! ### The line state (R141, R151) -/

/-- LINE_IDLE (R141): the recessive run reaches 11 in WAIT-IDLE. -/
def execLineIdle (s : State) : Host.Outcome State Fault Refusal :=
  if s.reading && s.lbi.line == .waitIdle then
    event (s.withLbi { s.lbi with line := .idle, recessiveRun := 11 })
  else noEvent s

/-- YIELD_GAP_END (R151): the recessive run reaches 19 while the yield is pending. -/
def execYieldGapEnd (s : State) : Host.Outcome State Fault Refusal :=
  if s.reading && s.lbi.line == .idle && s.lbi.yieldPending then
    event (s.withLbi { s.lbi with yieldPending := false, recessiveRun := 19 })
  else noEvent s

/-- START_BIT_READ (R141): a dominant bit is read while this station drives nothing. In IDLE it is a start bit; in
WAIT-IDLE, and inside a frame, it only sets the recessive run to 0. -/
def execStartBitRead (s : State) : Host.Outcome State Fault Refusal :=
  if s.reading && s.lbi.attempt.isNone then
    event (s.withLbi { s.lbi with
      line := if s.lbi.line = .idle then .frame else s.lbi.line
      recessiveRun := 0 })
  else noEvent s

/-! ### Sending (R145 to R149) -/

/-- A ZERO frame has reached its end and is not yet taken (R86, R145). -/
def Lbi.zeroWaits (l : Lbi) : Bool :=
  l.inbound.any (fun e => e.frame.kind == .zero) || l.loopback.any (fun lb => lb.frame.kind == .zero)

/-- The frame is barred (R145). -/
def Lbi.barred (l : Lbi) (f : OutFrame) : Bool :=
  match f.kind with
  | .cutover => l.zeroWaits || l.loopback.isSome
  | .zero => l.loopback.isSome
  | .hold => false
  | .release => false
  | .dismiss => false
  | .mark => false
  | .claims => false
  | .census => false

/-- The frame to start, with its failed-attempt count, and the queue without it (R145, R151). -/
def Lbi.startable (l : Lbi) : Option (SendSlot × Lbi) :=
  match l.slot with
  | some x =>
    if l.barred x.frame || (x.frame.kind.normalClass && l.yieldPending) then none else some (x, l)
  | none =>
    match l.urgent, l.normal with
    | f :: fs, [] => if l.barred f then none else some (⟨f, 0⟩, { l with urgent := fs })
    | f :: fs, g :: gs =>
      if !l.barred f then some (⟨f, 0⟩, { l with urgent := fs })
      else if l.barred g || l.yieldPending then none
      else some (⟨g, 0⟩, { l with normal := gs })
    | [], g :: gs => if l.barred g || l.yieldPending then none else some (⟨g, 0⟩, { l with normal := gs })
    | [], [] => none

/-- The frame as an attempt sends it; CLAIMS is built now (R86, R111). -/
def State.lineFrame (s : State) (f : OutFrame) : LineFrame where
  kind := f.kind
  origin := s.cfg.station
  payload :=
    match f with
    | .zero z p => zeroPayload z p
    | .hold n r m => holdPayload n r m
    | .release n => [byteOf n]
    | .dismiss t => [byteOf t]
    | .cutover cut n => cutoverPayload cut n
    | .mark m => markPayload m
    | .claims => claimsPayload s.lcu.epoch s.stc.station s.ownClaims
    | .census => []

/-- The attempt of a frame begins: it stands in the slot, a place it has freed goes to a deferred request, and the
start bit is driven (R145, R160). -/
def State.beginAttempt (s : State) (x : SendSlot) (l : Lbi) : State :=
  s.withLbi { Lbi.settleDeferred s.lbi l with
    slot := some x
    attempt := some (s.lineFrame x.frame)
    line := .frame
    recessiveRun := 0 }

/-- ATTEMPT_START (R145). -/
def execAttemptStart (s : State) : Host.Outcome State Fault Refusal :=
  if s.live && s.lbi.mode == .ready && s.lbi.line == .idle then
    match s.lbi.startable with
    | some (x, l) => event (s.beginAttempt x l)
    | none => noEvent s
  else noEvent s

/-- ARBITRATION_LOST (R146): the attempt ends, its frame stays in the slot, and the station receives. -/
def execArbitrationLost (s : State) : Host.Outcome State Fault Refusal :=
  if s.live && s.lbi.attempt.isSome then
    event (s.withLbi { s.lbi with attempt := none, recessiveRun := 0 })
  else noEvent s

/-- A frame is dropped after its eighth failure (R149). -/
def State.dropFrame (s : State) (f : OutFrame) : State :=
  let s1 := s.notice .sendFailed (some s.cfg.station) none (valueOf f.kind.byte)
  let s2 := ((s1.count .framesDropped).recordFault .sendFailed s.cfg.station).reportAbandoned f
  s2.withLbi { s2.lbi with slot := none, mode := .quiet, quiet := some (s.ahead s.cfg.quietInterval) }

/-- A bit error ends the attempt with the break and raises the failed-attempt count (R147). -/
def State.abortAttempt (s : State) (x : SendSlot) : State :=
  let s1 := s.withLbi { s.lbi with
    slot := some { x with failed := x.failed + 1 }
    attempt := none
    line := .waitIdle
    recessiveRun := 0 }
  let s2 := s1.count .framesAborted
  let s3 := if x.failed = 0 then s2.notice .frameAborted (some s.cfg.station) none (valueOf x.frame.kind.byte)
    else s2
  if 8 ≤ x.failed + 1 then s3.dropFrame x.frame else s3

/-- FRAME_ABORTED (R147, R149). -/
def execFrameAborted (s : State) : Host.Outcome State Fault Refusal :=
  if s.live && s.lbi.attempt.isSome then
    match s.lbi.slot with
    | some x => event (s.abortAttempt x)
    | none => noEvent s
  else noEvent s

/-- What a frame's kind hands on at its frame end (R148). -/
def State.handOn (s : State) (f : LineFrame) (x : OutFrame) : State :=
  match x with
  | .zero _ _ => s.withLbi { s.lbi with loopback := some ⟨f, s.lcu.raw, s.lbi.inbound.length⟩ }
  | .cutover _ _ => s.withLbi { s.lbi with loopback := some ⟨f, s.lcu.raw, s.lbi.inbound.length⟩ }
  | .mark m => if m.fresh then s.withMke { s.mke with freshPending := false } else s
  | .dismiss t => s.dismissStale t
  | .hold _ _ _ => s
  | .release _ => s
  | .claims => s
  | .census => s

/-- An own attempt reaches its frame end (R148, R151, R152). -/
def State.endAttempt (s : State) (f : LineFrame) (x : SendSlot) : State :=
  (s.withLbi { s.lbi with
    slot := none
    attempt := none
    yieldPending := s.lbi.yieldPending || f.kind.normalClass
    errorRun := false
    line := .waitIdle
    recessiveRun := trailingRecessive f.wire }).handOn f x.frame

/-- OWN_FRAME_END (R148). -/
def execOwnFrameEnd (s : State) : Host.Outcome State Fault Refusal :=
  match s.live, s.lbi.attempt, s.lbi.slot with
  | true, some f, some x => event (s.endAttempt f x)
  | _, _, _ => noEvent s

/-! ### Receiving (R152 to R157) -/

/-- This station is a receiver of a frame on the line (R152). -/
def State.receiving (s : State) : Bool := s.reading && s.lbi.line == .frame && s.lbi.attempt.isNone

/-- The receiver discards a faulty frame (R152). -/
def State.discardFrame (s : State) (cause run : Nat) : State :=
  let s1 := (s.withLbi { s.lbi with line := .waitIdle, recessiveRun := run, errorRun := true }).count .receiveErrors
  if s.lbi.errorRun then s1 else s1.notice .receiveError none none (valueOf cause)

/-- RECEIVE_ERROR (R152). -/
def execReceiveError (bits : List Bool) (s : State) : Host.Outcome State Fault Refusal :=
  match s.receiving, readFrame bits with
  | true, .fault cause => event (s.discardFrame cause (trailingRecessive bits))
  | _, _ => noEvent s

/-- A valid frame is offered to the inbound buffer (R154). -/
def State.offerInbound (s : State) (f : LineFrame) : State :=
  if s.lbi.inbound.length < 8 then
    s.withLbi { s.lbi with inbound := s.lbi.inbound ++ [⟨f, s.lcu.raw⟩], overrunRun := false }
  else
    let s1 := s.count .inboundOverruns
    if s.lbi.overrunRun then s1
    else
      let s2 := (s1.notice .inboundOverrun (some f.origin) none (valueOf f.kind.byte)).recordFault
        .inboundOverrun f.origin
      s2.withLbi { s2.lbi with overrunRun := true }

/-- A receiver reads a valid frame end: a duplicate goes to Station Control, any other frame to the inbound buffer
(R153, R157). -/
def State.receiveFrame (s : State) (f : LineFrame) (run : Nat) (o : NoticeOrder) : State :=
  let s1 := s.withLbi { s.lbi with line := .waitIdle, recessiveRun := run, errorRun := false }
  if f.origin = s.cfg.station then
    if s.onLine then s1.enterSilent o f.kind else s1
  else s1.offerInbound f

/-- VALID_FRAME_END (R153). -/
def execValidFrameEnd (bits : List Bool) (o : NoticeOrder) (s : State) : Host.Outcome State Fault Refusal :=
  match s.receiving, readFrame bits with
  | true, .valid f => event (s.receiveFrame f (trailingRecessive bits) o)
  | _, _ => noEvent s

end Sys2Proof.Machine
end

