-- ==== Sys2Proof/Machine/Records.lean ====
section
/-! DEFINITION. The records the local port returns (10, Records as read) and the decoding of a taken request (R181). -/

namespace Sys2Proof.Machine

/-- An optional 32-bit value in four bytes; absent is sent as 0 (R189). -/
def optional32 (v : Option (BitVec 32)) : List Byte := bytesBE 4 (v.getD 0).toNat

/-! ### Notices -/

/-- A notice record: 17 bytes. -/
def Notice.bytes (n : Notice) : List Byte :=
  [byteOf n.kind.code,
    byteOf (bitAt 0 n.coord.isSome + bitAt 1 n.origin.isSome + bitAt 2 n.number.isSome + bitAt 3 n.value.isSome)]
    ++ bytesBE 4 n.time.toNat ++ optional32 n.coord ++ [byteOf (n.origin.getD 0)]
    ++ bytesBE 2 (n.number.getD 0).toNat ++ optional32 n.value

/-! ### READ STATE (R182) -/

/-- One last capture: coordinate and time. -/
def captureBytes (c : Option (Coord × Time)) : List Byte :=
  optional32 (c.map Prod.fst) ++ optional32 (c.map Prod.snd)

/-- Byte 8 of READ STATE; bits 7 to 4 are sensors 1 to 4 in that order (log 23). -/
def State.flagByte (s : State) : Byte :=
  byteOf (bitAt 0 s.lcu.synced + bitAt 1 (s.pins.runok == .high) + bitAt 2 s.mke.spill.isSome
    + bitAt 3 (s.pins.attn == .high) + bitAt 7 s.scu.captures.c1.isSome + bitAt 6 s.scu.captures.c2.isSome
    + bitAt 5 s.scu.captures.c3.isSome + bitAt 4 s.scu.captures.c4.isSome)

/-- The state of the current set: 0 none, 1 OPEN, 2 CLOSING. -/
def Rmu.currentCode (r : Rmu) : Nat :=
  match r.current with
  | none => 0
  | some c => if c.cut.isSome then 2 else 1

/-- The READ STATE payload: 64 bytes. -/
def State.picture (s : State) : List Byte :=
  [byteOf s.stc.station.code, byteOf ((s.stc.config.map Settings.station).getD 0), byteOf s.lcu.joinSync.code,
    s.lcu.epoch]
    ++ bytesBE 4 s.lcu.coord.toNat
    ++ [s.flagByte, byteOf s.lbi.mode.code, byteOf s.lbi.line.code, byteOf s.lbi.queued, byteOf s.lbi.normal.length,
      byteOf s.lbi.inbound.length, byteOf s.mke.queue.length, byteOf s.htu.table.length,
      byteOf s.lpt.notices.length, byteOf s.rmu.currentCode]
    ++ bytesBE 2 ((s.rmu.current.map RollSet.number).getD 0)
    ++ [byteOf s.rmu.closed.length, byteOf s.scu.misses]
    ++ optional32 (s.mke.spill.map Spill.low) ++ optional32 (s.mke.spill.map Spill.high)
    ++ bytesBE 2 ((s.mke.spill.map Spill.count).getD 0)
    ++ captureBytes s.scu.captures.c1 ++ captureBytes s.scu.captures.c2 ++ captureBytes s.scu.captures.c3
    ++ captureBytes s.scu.captures.c4

/-! ### READ COUNTERS (R183) -/

/-- The READ COUNTERS payload: 24 bytes. -/
def State.counterBytes (s : State) : List Byte :=
  let c := s.stc.counters
  [c.framesAborted, c.framesDropped, c.receiveErrors, c.inboundOverruns, c.marksSpilled, c.gaps, c.setsLost,
    c.encoderErrors].flatMap (bytesBE 2)
    ++ [byteOf ((s.stc.fault.map (fun f => f.kind.code)).getD 0)]
    ++ optional32 (s.stc.fault.map FaultRecord.time)
    ++ [byteOf ((s.stc.fault.map FaultRecord.origin).getD 0)]
    ++ bytesBE 2 s.lpt.lost

/-! ### READ MARKS (R42) -/

/-- An action slot: 12 bytes. -/
def Action.bytes (a : Action) : List Byte :=
  byteOf (actionTypeCode a.type + 8 * a.state.code + 32 * paramCode a.param) ::
    (bytesBE 4 a.actionPos.toNat ++ bytesBE 4 a.triggerPos.toNat ++ bytesBE 3 a.width)

/-- A mark record with its queue index: 64 bytes, unused action slots 0. -/
def MarkRecord.bytes (ir : Nat × MarkRecord) : List Byte :=
  let r := ir.2
  bytesBE 2 ir.1 ++ [byteOf r.origin] ++ bytesBE 2 (r.number.getD 0).toNat
    ++ [byteOf r.kind.val, byteOf (bitAt 0 r.late + bitAt 1 r.rebased + bitAt 2 r.fresh + bitAt 3 r.spill
      + bitAt 4 r.number.isSome)]
    ++ bytesBE 2 r.lanes.toNat ++ bytesBE 4 r.position.toNat ++ bytesBE 2 r.extent ++ [byteOf r.actions.length]
    ++ r.actions.flatMap Action.bytes ++ List.replicate (12 * (4 - r.actions.length)) 0

/-- The READ MARKS payload. -/
def State.markBytes (s : State) (first count : Nat) : List Byte :=
  let given := ((numbered 0 s.mke.queue).drop first).take count
  [byteOf s.mke.queue.length, byteOf given.length] ++ given.flatMap MarkRecord.bytes

/-! ### READ HOLDS (R113) -/

/-- The age of a record, holding at 65,535; absent for this station's own (R113). That it is taken modulo 2^32, and is
absent for an origin without a last-heard time, is the model's choice (log 36). -/
def State.ageOf (s : State) (r : HoldRecord) : Option Nat :=
  if r.origin = s.cfg.station then none
  else (s.htu.heard r.origin).map (fun t => min 65535 (s.stc.now - t).toNat)

/-- A hold record: 8 bytes. -/
def State.holdBytes (s : State) (r : HoldRecord) : List Byte :=
  [byteOf r.origin, byteOf r.claim,
    byteOf (r.reason.code + bitAt 2 r.stale + bitAt 3 r.ref.isSome + bitAt 4 (s.ageOf r).isSome),
    byteOf ((r.ref.map Prod.fst).getD 0)]
    ++ bytesBE 2 ((r.ref.map Prod.snd).getD 0).toNat ++ bytesBE 2 ((s.ageOf r).getD 0)

/-- The READ HOLDS payload. -/
def State.holdsBytes (s : State) (first count : Nat) : List Byte :=
  [byteOf s.htu.table.length, byteOf (s.htu.table.filter HoldRecord.stale).length,
    byteOf (bitAt 0 (s.pins.runok == .high)), byteOf s.htu.tail]
    ++ ((s.htu.table.drop first).take count).flatMap s.holdBytes

/-! ### READ ROLL (R134) -/

/-- A roll entry of a set of length `len`: 16 bytes. -/
def RollEntry.bytes (len : Nat) (e : RollEntry) : List Byte :=
  [byteOf ((e.mark.map Prod.fst).getD 0)] ++ bytesBE 2 ((e.mark.map Prod.snd).getD 0).toNat
    ++ [byteOf (e.kind.val + bitAt 3 e.late + bitAt 4 e.splitTail + bitAt 5 e.splitHead + bitAt 6 e.blind)]
    ++ bytesBE 2 e.lanes.toNat ++ bytesBE 4 e.position ++ bytesBE 2 e.extent
    ++ bytesBE 4 (len - e.position - e.extent)

/-- A roll set header of a closed set: 24 bytes. -/
def ClosedSet.header (c : ClosedSet) : List Byte :=
  bytesBE 2 c.set.number
    ++ [byteOf (3 + 4 * c.announcement.code + bitAt 4 c.read),
      byteOf (bitAt 0 c.set.overflow + bitAt 1 c.set.uncertain + bitAt 2 c.set.interrupted
        + bitAt 3 c.set.followed.isSome)]
    ++ bytesBE 4 c.set.start.toNat ++ optional32 c.set.cut ++ bytesBE 4 c.endLength ++ [c.epoch]
    ++ bytesBE 2 c.set.dropped ++ [byteOf ((c.set.followed.map Prod.fst).getD 0)]
    ++ bytesBE 2 ((c.set.followed.map Prod.snd).getD 0) ++ bytesBE 2 c.set.entries.length

/-- The READ ROLL payload of a closed set. -/
def ClosedSet.bytes (c : ClosedSet) (first count : Nat) : List Byte :=
  c.header ++ ((c.set.entries.drop first).take count).flatMap (RollEntry.bytes c.endLength)

/-! ### Taken requests (R181) -/

/-- The response of a request goes into the slot, READY (R178). -/
def State.answerCode (s : State) (code : Byte) (status : Status) (payload : List Byte) : State :=
  s.withLpt { s.lpt with slot := .ready ⟨code, status, payload⟩ }

/-- The response of a known request. -/
def State.answer (s : State) (r : Request) (status : Status) (payload : List Byte := []) : State :=
  s.answerCode r.code status payload

/-- The payload of the taken request, where the slot prepares this one (R178). -/
def State.taken (s : State) (r : Request) : Option (List Byte) :=
  match s.lpt.slot with
  | .preparing code p => if code = r.code then some p else none
  | .ready _ => none

/-- The payload of a RANGE for a wrong length: field index 0 for CONFIGURE (R181, step 3). -/
def Request.lengthPayload (r : Request) : List Byte :=
  match r with
  | .configure => [0, 0]
  | .restart | .readState | .readCounters | .takeNotices | .readMarks | .postMark | .zero | .readHolds | .hold
  | .release | .dismiss | .cutover | .cancelCutover | .readRoll | .freeRoll => []

/-- Steps 2 to 4 of R181: the station state, the payload length, and then the owning block. -/
def State.decodeRequest (s : State) (r : Request) (p : List Byte) (body : State → List Byte → State) : State :=
  match r.refusal s.stc.station with
  | some status => s.answer r status
  | none => if p.length = r.length then body s p else s.answer r .range r.lengthPayload

/-- The take of a request: an event where the slot prepares it and the part is not held in reset. -/
def takeRequest (s : State) (r : Request) (body : State → List Byte → State) : Host.Outcome State Fault Refusal :=
  match s.live, s.taken r with
  | true, some p => event (s.decodeRequest r p body)
  | _, _ => noEvent s

end Sys2Proof.Machine
end

