-- ==== Sys2Proof/Machine/Requests.lean ====
section
/-! DEFINITION. The local port: LOCAL_TRANSACTION, and the takes of the local requests CONFIGURE to FREE_ROLL and
UNDEFINED. -/

namespace Sys2Proof.Machine

/-! ### Transactions (R177 to R180) -/

/-- The response frame a transaction shifts out (R178). -/
def Slot.shiftedOut (slot : Slot) : List Byte :=
  match slot with
  | .ready r => r.frame
  | .preparing code _ => (Response.mk code .notready []).frame

/-- The complete bytes of the bits clocked in, most significant bit first; a byte cut short is not one (R177). -/
def clockedBytes (bits : List Bool) : List Byte := bytesOf (bits.length / 8) bits

/-- The levels on LDO while `n` bits are clocked: the bytes of the frame, most significant bit first, and FFh for every
further byte (R177). -/
def shiftOut (frame : List Byte) (n : Nat) : List Bool :=
  ((frame.flatMap (fun b => bitsOf 8 b.toNat)) ++ List.replicate (n - 8 * frame.length) true).take n

/-- The slot at the end of a transaction (R178 to R180). -/
def Slot.afterTransaction (slot : Slot) (bytes : List Byte) : Slot :=
  match slot, bytes with
  | .preparing code p, _ => .preparing code p
  | .ready r, [] => .ready r
  | .ready _, b :: bs =>
    match examine (b :: bs) with
    | some (code, payload) => .preparing code payload
    | none => .ready ⟨b, .badframe, []⟩

/-- A transaction from the fall of LCS to its rise, bit by bit of LDI and LDO (R177). -/
def State.transact (s : State) (bits : List Bool) : State :=
  (s.withPins { s.pins with ldo := shiftOut s.lpt.slot.shiftedOut bits.length }).withLpt
    { s.lpt with slot := s.lpt.slot.afterTransaction (clockedBytes bits) }

/-- LOCAL_TRANSACTION (R179). Where LCS has been low since the reset ended, its rise ends no transaction (R177). In
reset nothing happens, and LCS stays as it was (log 12). -/
def execLocalTransaction (bits : List Bool) (s : State) : Host.Outcome State Fault Refusal :=
  if s.live then
    match s.pins.lcs with
    | .high => event (s.transact bits)
    | .low => event (s.withPins { s.pins with lcs := .high })
  else noEvent s

/-! ### CONFIGURE and RESTART (R167 to R169, R172) -/

/-- Set 1 is opened at 0 where the roll map is enabled (R117). -/
def State.openFirstSet (s : State) : State :=
  if s.cfg.rollMap then
    let s1 := s.useSetNumber
    s1.withRmu { s1.rmu with current := some (s.newSet 0) }
  else s

/-- A configuration block is stored and locked, the blocks start, and the station enters JOINING (R168). -/
def State.startBlocks (s : State) (c : Settings) : State :=
  let s1 := s.withStc { s.stc with config := some c, locked := true }
  let s2 := s1.withLcu { s1.lcu with levels := some (s1.pins.enca, s1.pins.encb) }
  let s3 := s2.withScu { s2.scu with filtered := s2.pins.sensors.map some }
  let s4 := (s3.withAou (s3.aou.released c.outputs)).openFirstSet
  let s5 := s4.withLbi { s4.lbi with mode := .ready, line := .waitIdle, recessiveRun := 0 }
  s5.enterJoining

/-- CONFIGURE, its length right (R167). -/
def State.takeConfigure (s : State) (p : List Byte) : State :=
  match firstFailing p with
  | some i => s.answer .configure .range (bytesBE 2 i)
  | none => (s.startBlocks (parseSettings p)).answer .configure .ok

/-- CONFIGURE (R167). -/
def execConfigure (s : State) : Host.Outcome State Fault Refusal := takeRequest s .configure State.takeConfigure

/-- RESTART (R172). -/
def State.takeRestart (s : State) (_p : List Byte) : State :=
  (s.warmReset.enterJoining).answer .restart .ok

/-- RESTART (R172). -/
def execRestart (s : State) : Host.Outcome State Fault Refusal := takeRequest s .restart State.takeRestart

/-! ### READ STATE, READ COUNTERS, TAKE NOTICES (R182, R183, R186) -/

/-- READ_STATE (R182). -/
def execReadState (s : State) : Host.Outcome State Fault Refusal :=
  takeRequest s .readState (fun t _ => t.answer .readState .ok t.picture)

/-- READ_COUNTERS (R183). -/
def execReadCounters (s : State) : Host.Outcome State Fault Refusal :=
  takeRequest s .readCounters (fun t _ => t.answer .readCounters .ok t.counterBytes)

/-- Notices leave the head of the queue; NOTICES LOST follows where some were dropped (R185, R186). -/
def State.removeNotices (s : State) (n : Nat) : State :=
  let given := s.lpt.notices.take n
  let s1 := s.withLpt { s.lpt with notices := s.lpt.notices.drop n }
  let s2 := if given.any (fun x => x.kind == .encoder) then
      s1.withLcu { s1.lcu with encoderOutstanding := false }
    else s1
  if !given.isEmpty && 0 < s.lpt.lost then
    let s3 := s2.withLpt { s2.lpt with lost := 0 }
    s3.notice .noticesLost none none (valueOf s.lpt.lost)
  else s2

/-- TAKE NOTICES, its length right (R186). -/
def State.takeNoticesNow (s : State) (p : List Byte) : State :=
  if within 1 4 (byteAt p 0) then
    let given := s.lpt.notices.take (byteAt p 0)
    let s1 := s.removeNotices (byteAt p 0)
    s1.answer .takeNotices .ok
      ([byteOf given.length, byteOf s1.lpt.notices.length] ++ given.flatMap Notice.bytes)
  else s.answer .takeNotices .range

/-- TAKE_NOTICES (R186). -/
def execTakeNotices (s : State) : Host.Outcome State Fault Refusal := takeRequest s .takeNotices State.takeNoticesNow

/-! ### READ MARKS and POST MARK (R42, R27) -/

/-- READ MARKS, its length right (R42). -/
def State.takeReadMarks (s : State) (p : List Byte) : State :=
  if byteAt p 0 ≤ 63 && within 1 8 (byteAt p 1) then
    s.answer .readMarks .ok (s.markBytes (byteAt p 0) (byteAt p 1))
  else s.answer .readMarks .range

/-- READ_MARKS (R42). -/
def execReadMarks (s : State) : Host.Outcome State Fault Refusal := takeRequest s .readMarks State.takeReadMarks

/-- The fields of a POST MARK request (R27, R189). -/
structure PostFields where
  kind : Nat
  atCoordinate : Bool
  lanes : Lanes
  extent : Nat
  position : Coord
  tag : List Byte
  deriving DecidableEq, Repr

def parsePost (p : List Byte) : PostFields where
  kind := byteAt p 0
  atCoordinate := (byteAt p 1).testBit 0
  lanes := BitVec.ofNat 16 (field p 2 2)
  extent := field p 4 2
  position := BitVec.ofNat 32 (field p 6 4)
  tag := (p.drop 10).take 4

/-- The position a POST MARK states: as named, or the coordinate at the take (R27, R88). -/
def State.postPosition (s : State) (f : PostFields) : Coord :=
  if f.atCoordinate then s.lcu.coord else f.position

/-- The first failing check of a POST MARK (R27). -/
def State.postRefusal (s : State) (f : PostFields) : Option Status :=
  if !s.isActive then some .state
  else if !(f.kind ≤ 6 && lanesWithin s.cfg.laneCount f.lanes) then some .range
  else if s.mke.lastPosted.any (fun held => before (s.postPosition f) held) then some .order
  else if !s.lbi.normalFree then some .busy
  else none

/-- The placement byte of the OK; for a repeat it is a free value (R27, log 9). -/
def placementByte (used : Nat) (p : Placement) : Byte :=
  match p with
  | .queued => 0
  | .spilled => 1
  | .notQueued => 2
  | .clash => 3
  | .repeated => (Config.freePlacement used).setWidth 8

/-- A free value has been used where the placement is a repeat (log 9). -/
def State.useFree (s : State) (p : Placement) : State :=
  match p with
  | .repeated => s.withMke { s.mke with freeUsed := s.mke.freeUsed + 1 }
  | .queued => s
  | .spilled => s
  | .notQueued => s
  | .clash => s

/-- An accepted POST MARK: number, frame, own last posted position, offer, response (R26, R27, R29). -/
def State.acceptPost (s : State) (f : PostFields) : State :=
  let q := s.postPosition f
  let m := s.ownMarkFrame (Fin.ofNat 8 f.kind) q f.lanes f.extent
  let s1 := (s.consumeNumber q).withLbi (s.lbi.queueNormal (.mark m))
  let r := s1.offerMark (m.ownOffer s.cfg.station)
  (r.1.useFree r.2).answer .postMark .ok
    (bytesBE 2 m.number.toNat ++ bytesBE 4 q.toNat ++ [placementByte r.1.mke.freeUsed r.2] ++ f.tag)

/-- POST MARK, its length right (R27). -/
def State.takePost (s : State) (p : List Byte) : State :=
  match s.postRefusal (parsePost p) with
  | some status => s.answer .postMark status
  | none => s.acceptPost (parsePost p)

/-- POST_MARK (R27). -/
def execPostMark (s : State) : Host.Outcome State Fault Refusal := takeRequest s .postMark State.takePost

/-! ### ZERO (R81) -/

/-- ZERO, its length right (R81). -/
def State.takeZeroRequest (s : State) (p : List Byte) : State :=
  if 2147483647 < field p 0 4 then s.answer .zero .range
  else if !s.lbi.unreservedFree then s.answer .zero .busy
  else
    (s.withLbi (s.lbi.queueUrgent (.zero (BitVec.ofNat 32 (field p 0 4)) s.cfg.path))).answer .zero .ok

/-- ZERO (R81). -/
def execZero (s : State) : Host.Outcome State Fault Refusal := takeRequest s .zero State.takeZeroRequest

/-! ### READ HOLDS, HOLD, RELEASE, DISMISS (R113, R105 to R107) -/

/-- READ HOLDS, its length right (R113). -/
def State.takeReadHolds (s : State) (p : List Byte) : State :=
  if byteAt p 0 ≤ 95 && within 1 24 (byteAt p 1) then
    s.answer .readHolds .ok (s.holdsBytes (byteAt p 0) (byteAt p 1))
  else s.answer .readHolds .range

/-- READ_HOLDS (R113). -/
def execReadHolds (s : State) : Host.Outcome State Fault Refusal := takeRequest s .readHolds State.takeReadHolds

/-- A HOLD or RELEASE frame for claim `n` has a place at a local request (R105, R106, R158). -/
def Lbi.claimPlace (l : Lbi) (n : Nat) : Bool := l.waitsFor n || l.unreservedFree

/-- HOLD, its length right (R105). -/
def State.takeHoldRequest (s : State) (p : List Byte) : State :=
  let n := byteAt p 0
  if 2 < n then s.answer .hold .range
  else if s.holdsClaim n then s.answer .hold .inuse
  else if !s.lbi.claimPlace n then s.answer .hold .busy
  else (s.makeClaim n .operator none).answer .hold .ok

/-- HOLD (R105). -/
def execHold (s : State) : Host.Outcome State Fault Refusal := takeRequest s .hold State.takeHoldRequest

/-- The Sensor Capture Unit is told of a local release of claim 3 (R76, R106). -/
def State.clearMisses (s : State) (n : Nat) : State :=
  if n = 3 then s.withScu { s.scu with misses := 0 } else s

/-- RELEASE, its length right (R106). -/
def State.takeReleaseRequest (s : State) (p : List Byte) : State :=
  let n := byteAt p 0
  if 3 < n then s.answer .release .range
  else if !s.holdsClaim n then s.answer .release .nosuch
  else if n = 3 && !s.holdsFor 3 .sight then s.answer .release .state
  else if !s.lbi.claimPlace n then s.answer .release .busy
  else ((s.releaseClaim n).clearMisses n).answer .release .ok

/-- RELEASE (R106). -/
def execRelease (s : State) : Host.Outcome State Fault Refusal := takeRequest s .release State.takeReleaseRequest

/-- The STALE records of an origin (R107). -/
def Htu.staleOf (h : Htu) (t : Nat) : Nat := (h.table.filter (fun r => r.origin == t && r.stale)).length

/-- DISMISS, its length right (R107). -/
def State.takeDismissRequest (s : State) (p : List Byte) : State :=
  let t := byteAt p 0
  if !validStation t || t = s.cfg.station then s.answer .dismiss .range
  else if !s.lbi.unreservedFree then s.answer .dismiss .busy
  else (s.withLbi (s.lbi.queueUrgent (.dismiss t))).answer .dismiss .ok [byteOf (s.htu.staleOf t)]

/-- DISMISS (R107). -/
def execDismiss (s : State) : Host.Outcome State Fault Refusal := takeRequest s .dismiss State.takeDismissRequest

/-! ### CUTOVER (R125, R126, R128) -/

/-- The current set, where the roll map is enabled. -/
def State.currentSet (s : State) : Option RollSet := if s.cfg.rollMap then s.rmu.current else none

/-- The response of a CUTOVER: two set numbers. -/
def State.answerCutover (s : State) (a b : Nat) : State :=
  s.answer .cutover .ok (bytesBE 2 a ++ bytesBE 2 b)

/-- CUTOVER in mode AT, or in no mode at all (R125, R126). -/
def State.takeCutoverAt (s : State) (p : List Byte) : State :=
  let x : Coord := BitVec.ofNat 32 (field p 1 4)
  match s.currentSet with
  | none => s.answer .cutover .state
  | some cur =>
    if byteAt p 0 ≠ 0 then s.answer .cutover .range
    else if cur.cut.isSome then s.answer .cutover .busy
    else if !(before s.lcu.coord x && before cur.start x) then s.answer .cutover .range
    else (s.planCut cur x).answerCutover cur.number s.rmu.nextSet

/-- CUTOVER in mode NOW (R125, R128). -/
def State.takeCutoverNow (s : State) (_p : List Byte) : State :=
  match s.currentSet with
  | none => s.answer .cutover .state
  | some cur =>
    if cur.cut.isSome then s.answer .cutover .busy
    else if !before cur.start s.lcu.coord then s.answer .cutover .range
    else if s.isActive && !s.lbi.normalFree then s.answer .cutover .busy
    else (s.closeWithNew cur s.lcu.coord true).answerCutover cur.number s.rmu.nextSet

/-- The taken request is a CUTOVER whose mode byte is NOW. -/
def State.cutoverIsNow (s : State) : Bool :=
  match s.taken .cutover with
  | some p => byteAt p 0 == 1
  | none => false

/-- CUTOVER_AT (R126): the take of a CUTOVER whose mode is not NOW (log 11). -/
def execCutoverAt (s : State) : Host.Outcome State Fault Refusal :=
  if s.cutoverIsNow then noEvent s else takeRequest s .cutover State.takeCutoverAt

/-- CUTOVER_NOW (R128): the take of a CUTOVER whose mode is NOW. -/
def execCutoverNow (s : State) : Host.Outcome State Fault Refusal :=
  if s.cutoverIsNow then takeRequest s .cutover State.takeCutoverNow else noEvent s

/-- CANCEL CUTOVER, its length right (R131). -/
def State.takeCancel (s : State) (_p : List Byte) : State :=
  match s.currentSet, s.rmu.next with
  | some cur, some nxt =>
    if cur.cut.isSome then s.mergeBack.answer .cancelCutover .ok (bytesBE 2 nxt.number)
    else s.answer .cancelCutover .state
  | _, _ => s.answer .cancelCutover .state

/-- CANCEL_CUTOVER (R131). -/
def execCancelCutover (s : State) : Host.Outcome State Fault Refusal := takeRequest s .cancelCutover State.takeCancel

/-! ### READ ROLL and FREE ROLL (R133, R134) -/

/-- The set of a number in the closed-set queue; the oldest where several carry it, by the model's choice (log 34). -/
def Rmu.closedSet (r : Rmu) (n : Nat) : Option ClosedSet := r.closed.find? (fun c => c.set.number == n)

/-- The current set or the NEXT set of a number. -/
def Rmu.openSet (r : Rmu) (n : Nat) : Option RollSet :=
  match r.current with
  | some c => if c.number = n then some c else r.next.filter (fun x => x.number == n)
  | none => r.next.filter (fun x => x.number == n)

/-- The pending read ends where it names a set (R134). -/
def Rmu.endRead (r : Rmu) (n : Nat) : Option (Nat × Time) := r.pendingRead.filter (fun p => p.1 != n)

/-- READ ROLL of a closed set (R134). That the read field is given as yes in the response that makes it yes is the
model's choice (log 32), and so is that it becomes yes in every closed set of that number (log 34). -/
def State.readClosed (s : State) (c : ClosedSet) (first count : Nat) : State :=
  let c' : ClosedSet := { c with read := true }
  (s.withRmu { s.rmu with
    closed := s.rmu.closed.map (fun x => if x.set.number = c.set.number then { x with read := true } else x)
    pendingRead := s.rmu.endRead c.set.number }).answer .readRoll .ok (c'.bytes first count)

/-- A read of a set not yet closed is pending, its discard expiry one discard interval ahead (R134). -/
def State.readPending (s : State) (r : RollSet) : State :=
  (s.withRmu { s.rmu with pendingRead := some (r.number, s.ahead s.cfg.discardInterval) }).answer .readRoll
    .pending (bytesBE 2 r.number ++ [if r.cut.isSome then 2 else 1])

/-- READ ROLL of a set not yet closed: pending, or another read stands in its way (R134). -/
def State.readOpen (s : State) (r : RollSet) : State :=
  match s.rmu.pendingRead with
  | some (n, _) => if n = r.number then s.readPending r else s.answer .readRoll .retry (bytesBE 2 n)
  | none => s.readPending r

/-- READ ROLL, its length right (R134). A number that a closed set and an open one carry names the closed one: the
model's choice (log 34). -/
def State.takeReadRoll (s : State) (p : List Byte) : State :=
  let n := field p 0 2
  if !s.cfg.rollMap then s.answer .readRoll .state
  else if !within 1 8 (byteAt p 3) then s.answer .readRoll .range
  else
    match s.rmu.closedSet n with
    | some c => s.readClosed c (byteAt p 2) (byteAt p 3)
    | none =>
      match s.rmu.openSet n with
      | some r => s.readOpen r
      | none => (s.withRmu { s.rmu with pendingRead := s.rmu.endRead n }).answer .readRoll .nosuch

/-- READ_ROLL (R134). -/
def execReadRoll (s : State) : Host.Outcome State Fault Refusal := takeRequest s .readRoll State.takeReadRoll

/-- FREE ROLL, its length right (R133). Every closed set of the number is removed: the model's choice (log 34). -/
def State.takeFreeRoll (s : State) (p : List Byte) : State :=
  let n := field p 0 2
  if !s.cfg.rollMap then s.answer .freeRoll .state
  else if (s.rmu.openSet n).isSome then s.answer .freeRoll .state
  else if (s.rmu.closedSet n).isNone then s.answer .freeRoll .nosuch
  else
    (s.withRmu { s.rmu with
      closed := s.rmu.closed.filter (fun c => c.set.number != n)
      pendingRead := s.rmu.endRead n }).answer .freeRoll .ok

/-- FREE_ROLL (R133). -/
def execFreeRoll (s : State) : Host.Outcome State Fault Refusal := takeRequest s .freeRoll State.takeFreeRoll

/-! ### UNDEFINED (R181) -/

/-- The code of a taken request that is not in the code list. -/
def State.unknownCode (s : State) : Option Byte :=
  match s.lpt.slot with
  | .preparing code _ => if Request.list.any (fun r => r.code == code) then none else some code
  | .ready _ => none

/-- UNDEFINED (R181, step 1): an unknown code is answered with four bytes FFh. -/
def execUndefined (s : State) : Host.Outcome State Fault Refusal :=
  match s.live, s.unknownCode with
  | true, some code => event (s.answerCode code .undefined (List.replicate 4 0xFF))
  | _, _ => noEvent s

end Sys2Proof.Machine
end

