-- ==== Sys2Proof/Machine/Reset.lean ====
section
/-! DEFINITION. The cold reset: RESETN_HELD_LOW and COLD_RESET (R173). -/

namespace Sys2Proof.Machine

/-- RESETN_HELD_LOW (R173): RESETN falls, or power is lost. Work in flight on the line is cut off and the pins are
driven as in reset; what the blocks hold is of no account until the reset takes effect (log 19). That the level of LCS
is not followed in reset is the model's choice (log 12): this command takes no level, LOCAL_TRANSACTION moves nothing,
so LCS stands as it last was, and LDO is driven by that, until COLD_RESET gives the level. -/
def execResetnHeldLow (s : State) : Host.Outcome State Fault Refusal :=
  event ((s.withPins { s.pins with resetn := .low }).withLbi { s.lbi with attempt := none })

/-- The pins right after a cold reset: the inputs as they stand, LCS as given (R173, R177). -/
def Pins.afterReset (p : Pins) (lcs : Level) : Pins :=
  { Pins.cold with enca := p.enca, encb := p.encb, sensors := p.sensors, lcs := lcs }

/-- COLD_RESET (R173): the reset takes effect. Every block takes its cold value; the input pins stay as they are,
and so do the commands waiting outside and the model's count of free values (log 9). -/
def execColdReset (lcs : Level) (s : State) : Host.Outcome State Fault Refusal :=
  event { State.reset with
    mke := { Mke.cold with freeUsed := s.mke.freeUsed }
    pins := s.pins.afterReset lcs
    pending := s.pending }

end Sys2Proof.Machine
end

