-- ==== Sys2Proof/Machine/Takes.lean ====
section
/-! DEFINITION. The takes of inbound frames and of the loopback: MARK_FRAME, ZERO_FRAME, ZERO_LOOPBACK,
CUTOVER_LOOPBACK, HOLD_FRAME, RELEASE_FRAME, DISMISS_FRAME, CLAIMS_FRAME, CENSUS_FRAME and CUTOVER_FRAME. -/

namespace Sys2Proof.Machine

/-! ### What stands first in frame-end order (R83, R155) -/

/-- The loopback stands before every inbound entry. -/
def Lbi.loopbackFirst (l : Lbi) : Bool := l.loopback.any (fun lb => lb.ahead == 0)

/-- The inbound entry to be taken next, where it is of a kind. -/
def Lbi.nextOf (l : Lbi) (k : FrameKind) : Option InEntry :=
  match l.inbound with
  | [] => none
  | e :: _ => if !l.loopbackFirst && e.frame.kind == k then some e else none

/-- The oldest inbound entry leaves the buffer. -/
def Lbi.dropOldest (l : Lbi) : Lbi :=
  { l with
    inbound := l.inbound.tail
    loopback := l.loopback.map (fun lb => { lb with ahead := lb.ahead - 1 }) }

/-- The take of an inbound frame of a kind by its block, in any configured state (R155). -/
def takeFrame (s : State) (k : FrameKind) (body : State → InEntry → State) : Host.Outcome State Fault Refusal :=
  match s.live && s.configured, s.lbi.nextOf k with
  | true, some e => event (body (s.withLbi s.lbi.dropOldest) e)
  | _, _ => noEvent s

/-- The loopback, where it is to be taken next and is of a kind. -/
def Lbi.nextLoopback (l : Lbi) (k : FrameKind) : Option Loopback :=
  match l.loopback with
  | none => none
  | some lb => if lb.ahead == 0 && lb.frame.kind == k then some lb else none

/-- The take of the loopback (R83, R155). -/
def takeLoopback (s : State) (k : FrameKind) (body : State → Loopback → State) :
    Host.Outcome State Fault Refusal :=
  match s.live && s.configured, s.lbi.nextLoopback k with
  | true, some lb => event (body (s.withLbi { s.lbi with loopback := none }) lb)
  | _, _ => noEvent s

/-! ### MARK frames (R21 to R25) -/

/-- The first failing content check of a MARK frame (R21). -/
def markFault (origin : Nat) (m : MarkFrame) : Option Nat :=
  if !validStation origin then some 1
  else if m.kind == blindKind then some 2
  else if m.lanes == 0 then some 3
  else none

/-- A stale MARK frame: notice, and the origin table moves on where the number is ahead (R23). -/
def State.staleMark (s : State) (o : Nat) (m : MarkFrame) (d : Nat) : State :=
  let s1 := s.notice .markStale (some o) (some m.number) (valueOf d)
  match s.mke.entryOf o with
  | .unknown => s1
  | .tracking last p =>
    if within 1 32767 (m.number - last).toNat then s1.setOrigin o (.tracking m.number p) else s1

/-- The chain of BLIND intervals over a span, at most `n` of them, and what the chain leaves (R25). -/
def gapChain : (n : Nat) → (start : Coord) → (span : Nat) → List (Coord × Nat) × Option (Coord × Nat)
  | 0, start, span => ([], some (start, span))
  | n + 1, start, span =>
    if span ≤ 65535 then ([(start, span)], none)
    else
      let (rest, left) := gapChain n (start + 65535#32) (span - 65535)
      ((start, 65535) :: rest, left)

/-- The BLIND records of a gap and its notice and counter (R25); `l` is the last mark position, `p` the new one. -/
def State.reportGap (s : State) (o : Nat) (n : MarkNo) (missing : Nat) (l p : Coord) : State :=
  let start := earlier l p
  let span := (later l p - start).toNat
  let (chain, left) := gapChain 4 start span
  let s1 := chain.foldl (fun t qx => (t.offerPlain (t.blindOffer qx.1 qx.2 false)).1) s
  let s2 := match left with
    | some (q, x) => s1.foldSpill none q x
    | none => s1
  (s2.notice .gap (some o) (some n) (packHalves missing (min span 65535))).count .gaps

/-- The offer of the mark of a frame (R18). -/
def MarkFrame.offer (m : MarkFrame) (o : Nat) (p : Coord) (rebased : Bool) : MarkOffer where
  origin := o
  number := some m.number
  kind := m.kind
  position := p
  lanes := m.lanes
  extent := m.extent
  rebased := rebased
  fresh := m.fresh
  spill := false

/-- How a mark number stands to the origin table entry (R24). -/
inductive Sequence
  | base
  | inSequence
  | gap (missing : Nat)
  | old
  deriving DecidableEq, Repr

/-- The classification of R24. -/
def classify (e : OriginEntry) (m : MarkFrame) : Sequence :=
  match e with
  | .unknown => .base
  | .tracking last _ =>
    if m.fresh then .base
    else if (m.number - last).toNat = 1 then .inSequence
    else if within 2 32767 (m.number - last).toNat then .gap ((m.number - last).toNat - 1)
    else .old

/-- The last mark position an entry takes with a new mark (R24). -/
def OriginEntry.laterPosition (e : OriginEntry) (p : Coord) : Coord :=
  match e with
  | .unknown => p
  | .tracking _ held => later held p

/-- The last mark position of an entry, the bound of a blind interval (R25). -/
def OriginEntry.position (e : OriginEntry) (p : Coord) : Coord :=
  match e with
  | .unknown => p
  | .tracking _ held => held

/-- A mark of the current or the previous epoch (R24, R25). -/
def State.currentMark (s : State) (o : Nat) (m : MarkFrame) (p : Coord) (rebased : Bool) : State :=
  let e := s.mke.entryOf o
  match classify e m with
  | .base => ((s.setOrigin o (.tracking m.number p)).offerMark (m.offer o p rebased)).1
  | .inSequence =>
    ((s.setOrigin o (.tracking m.number (e.laterPosition p))).offerMark (m.offer o p rebased)).1
  | .gap missing =>
    (((s.reportGap o m.number missing (e.position p) p).setOrigin o
      (.tracking m.number (e.laterPosition p))).offerMark (m.offer o p rebased)).1
  | .old => s.notice .markDuplicate (some o) (some m.number)

/-- A MARK frame that has passed its content checks, by its epoch (R22). -/
def State.compareMark (s : State) (n : NoticeOrder) (o : Nat) (m : MarkFrame) : State :=
  let d := s.epochDiff m.epoch
  if d = 0 then s.currentMark o m m.position false
  else if d = 255 then s.currentMark o m (m.position + s.lcu.deltaPrev.getD 0) true
  else if d ≤ 127 then
    (s.enterDesync n (fun t => t.epochAhead o (some m.number) d)).clearSync
  else s.staleMark o m d

/-- The Mark Engine takes a MARK frame (R21). -/
def State.takeMark (s : State) (n : NoticeOrder) (o : Nat) (m : MarkFrame) : State :=
  if s.isActive then
    match markFault o m with
    | some v => s.notice .markInvalid (some o) (some m.number) (valueOf v)
    | none => s.compareMark n o m
  else s

/-- MARK_FRAME (R21). -/
def execMarkFrame (n : NoticeOrder) (s : State) : Host.Outcome State Fault Refusal :=
  takeFrame s .mark (fun t e => t.takeMark n e.frame.origin (parseMark e.frame.payload))

/-! ### ZERO frames and loopbacks (R82, R83, R124) -/

/-- The Length Counting Unit takes a ZERO frame of another station (R82). -/
def State.takeZero (s : State) (e : InEntry) : State :=
  if !validStation e.frame.origin then s.notice .zeroInvalid (some e.frame.origin)
  else if s.onLine then
    s.applyZero e.frame.origin (parseZero e.frame.payload).1 (parseZero e.frame.payload).2 e.raw
  else s

/-- ZERO_FRAME (R82). -/
def execZeroFrame (s : State) : Host.Outcome State Fault Refusal := takeFrame s .zero State.takeZero

/-- The Length Counting Unit takes the loopback of this station's own ZERO (R83). -/
def State.takeOwnZero (s : State) (lb : Loopback) : State :=
  if s.onLine then s.applyZero s.cfg.station (parseZero lb.frame.payload).1 s.cfg.path lb.raw else s

/-- ZERO_LOOPBACK (R83). -/
def execZeroLoopback (s : State) : Host.Outcome State Fault Refusal := takeLoopback s .zero State.takeOwnZero

/-- CUTOVER_LOOPBACK (R124). -/
def execCutoverLoopback (s : State) : Host.Outcome State Fault Refusal :=
  takeLoopback s .cutover (fun t lb => t.announce (parseCutover lb.frame.payload).2 .sent)

/-! ### Claim frames (R97 to R103) -/

/-- A claim frame whose content fails is discarded with CLAIM INVALID (R97). -/
def State.claimInvalid (s : State) (f : LineFrame) : State :=
  s.notice .claimInvalid (some f.origin) none (valueOf f.kind.byte)

/-- The content check of a HOLD frame (R97). -/
def holdOk (o n : Nat) (reason : Reason) (ref : Option MarkRef) : Bool :=
  validStation o && n < 4 && reasonFits n reason &&
    (match ref with
      | none => true
      | some (ro, _) => reason == .mark && validStation ro)

/-- A HOLD frame (R98). -/
def State.holdFrom (s : State) (o n : Nat) (reason : Reason) (ref : Option MarkRef) : State :=
  let revived := match s.htu.find o n with
    | some r => r.stale
    | none => false
  let s1 := s.withHtu (({ s.htu with table := putHold ⟨o, n, reason, ref, false⟩ s.htu.table } : Htu).hear o s.stc.now)
  if revived then s1.notice .claimRevived (some o) none (valueOf 1) else s1

/-- The Hold Table Unit takes a HOLD frame. -/
def State.takeHold (s : State) (e : InEntry) : State :=
  let h := parseHold e.frame.payload
  if holdOk e.frame.origin h.1 h.2.1 h.2.2 then s.holdFrom e.frame.origin h.1 h.2.1 h.2.2
  else s.claimInvalid e.frame

/-- HOLD_FRAME (R98). -/
def execHoldFrame (s : State) : Host.Outcome State Fault Refusal := takeFrame s .hold State.takeHold

/-- The Hold Table Unit takes a RELEASE frame (R97, R99). -/
def State.takeRelease (s : State) (e : InEntry) : State :=
  let o := e.frame.origin
  let n := byteAt e.frame.payload 0
  if validStation o && n < 4 then
    s.withHtu (({ s.htu with table := dropHold o n s.htu.table } : Htu).hear o s.stc.now)
  else s.claimInvalid e.frame

/-- RELEASE_FRAME (R99). -/
def execReleaseFrame (s : State) : Host.Outcome State Fault Refusal := takeFrame s .release State.takeRelease

/-- The Hold Table Unit takes a DISMISS frame (R97, R102). That a target of 32 to 255 fails, as one of 0 or 25 to 31
does, is the model's choice (log 35). -/
def State.takeDismiss (s : State) (e : InEntry) : State :=
  let t := byteAt e.frame.payload 0
  if validStation e.frame.origin && validStation t then s.dismissStale t else s.claimInvalid e.frame

/-- DISMISS_FRAME (R102). -/
def execDismissFrame (s : State) : Host.Outcome State Fault Refusal := takeFrame s .dismiss State.takeDismiss

/-- No claim number is listed twice. -/
def noRepeats : List Nat → Bool
  | [] => true
  | n :: ns => !ns.contains n && noRepeats ns

/-- The content check of a CLAIMS frame (R97). -/
def claimsOk (o sender : Nat) (claims : List (Nat × Reason)) : Bool :=
  validStation o && within 1 3 sender && claims.all (fun c => c.1 < 4 && reasonFits c.1 c.2)
    && noRepeats (claims.map Prod.fst)

/-- The record a claim byte makes: a mark reference is kept where number and reason are unchanged (R100). -/
def Htu.listed (h : Htu) (o : Nat) (c : Nat × Reason) : HoldRecord :=
  ⟨o, c.1, c.2,
    match h.find o c.1 with
    | some r => if r.reason = c.2 then r.ref else none
    | none => none,
    false⟩

/-- The STALE records of an origin that a CLAIMS frame lists (R100). -/
def Htu.revivedBy (h : Htu) (o : Nat) (claims : List (Nat × Reason)) : Nat :=
  ((h.of o).filter (fun r => r.stale && claims.any (fun c => c.1 == r.claim))).length

/-- The claims of a CLAIMS frame replace every record of its origin (R100). -/
def State.takeClaimList (s : State) (o : Nat) (claims : List (Nat × Reason)) : State :=
  let others := s.htu.table.filter (fun r => r.origin != o)
  let table := (claims.map (s.htu.listed o)).foldl (fun t r => putHold r t) others
  let revived := s.htu.revivedBy o claims
  let s1 := s.withHtu (({ s.htu with table := table } : Htu).hear o s.stc.now)
  if revived = 0 then s1 else s1.notice .claimRevived (some o) none (valueOf revived)

/-- The epoch comparison of a CLAIMS frame from an ACTIVE sender in JOINING (R90). -/
def State.joinEpoch (s : State) (o : Nat) (e : Epoch) : State :=
  let d := s.epochDiff e
  match s.lcu.joinSync with
  | .adopting => s.withLcu { s.lcu with epoch := e }
  | .zeroed =>
    if within 1 127 d then
      let s1 := s.epochAhead o none d
      s1.withLcu { s1.lcu with joinSync := .lagging }
    else s
  | .lagging => s

/-- The epoch comparison in DESYNC: adoption (R93). -/
def State.adoptEpoch (s : State) (e : Epoch) : State :=
  if within 1 127 (s.epochDiff e) then s.withLcu { s.lcu with epoch := e, deltaPrev := none } else s

/-- A CLAIMS frame that passes its checks: the epoch comparison where the sender is ACTIVE, and then the claims it
lists (R89, R100). In an entry to DESYNC the synchronised flag is cleared last (R12), and its notices stand before CLAIM
REVIVED (log 30). -/
def State.compareClaims (s : State) (n : NoticeOrder) (o : Nat) (e : Epoch) (sender : Nat)
    (claims : List (Nat × Reason)) : State :=
  if sender = 2 then
    match s.stc.station with
    | .active =>
      if within 1 127 (s.epochDiff e) then
        ((s.enterDesync n (fun t => t.epochAhead o none (s.epochDiff e))).takeClaimList o claims).clearSync
      else s.takeClaimList o claims
    | .joining => (s.joinEpoch o e).takeClaimList o claims
    | .desync => (s.adoptEpoch e).takeClaimList o claims
    | .silent => s.takeClaimList o claims
    | .unconfigured => s.takeClaimList o claims
  else s.takeClaimList o claims

/-- The Hold Table Unit takes a CLAIMS frame. -/
def State.takeClaims (n : NoticeOrder) (s : State) (e : InEntry) : State :=
  let p := e.frame.payload
  if claimsOk e.frame.origin (byteAt p 1) (parseClaims p) then
    s.compareClaims n e.frame.origin (p.getD 0 0) (byteAt p 1) (parseClaims p)
  else s.claimInvalid e.frame

/-- CLAIMS_FRAME (R100). -/
def execClaimsFrame (n : NoticeOrder) (s : State) : Host.Outcome State Fault Refusal :=
  takeFrame s .claims (State.takeClaims n)

/-- The Hold Table Unit takes a CENSUS frame (R97, R103). -/
def State.takeCensus (s : State) (e : InEntry) : State :=
  if !validStation e.frame.origin then s.claimInvalid e.frame
  else if s.onLine then s.request .claims
  else s

/-- CENSUS_FRAME (R103). -/
def execCensusFrame (s : State) : Host.Outcome State Fault Refusal := takeFrame s .census State.takeCensus

/-! ### CUTOVER frames (R130) -/

/-- The Roll Map Unit takes a CUTOVER frame: followed, or discarded without notice (R130). -/
def State.takeCutover (s : State) (e : InEntry) : State :=
  if s.cfg.rollMap && s.cfg.followCuts && validStation e.frame.origin && s.isActive then
    s.followCut (parseCutover e.frame.payload).1 (e.frame.origin, (parseCutover e.frame.payload).2)
  else s

/-- CUTOVER_FRAME (R130). -/
def execCutoverFrame (s : State) : Host.Outcome State Fault Refusal := takeFrame s .cutover State.takeCutover

end Sys2Proof.Machine
end

