-- ==== Sys2Proof/Machine/Timers.lean ====
section
/-! DEFINITION. Commands of the timebase and its timers: TIMEBASE_ADVANCE, MS_PULSE_END, CLAIM_STALE, REFRESH_EXPIRY,
QUIET_EXPIRY, DISCARD_EXPIRY and JOIN_DONE. Each expiry is a step of its own (log 3). -/

namespace Sys2Proof.Machine

/-- A timer that runs has reached its expiry (R174, log 22). -/
def State.expired (s : State) (timer : Option Time) : Bool :=
  match timer with
  | some t => reached s.stc.now t
  | none => false

/-- TIMEBASE_ADVANCE (R174). -/
def execTimebaseAdvance (s : State) : Host.Outcome State Fault Refusal :=
  if s.live then event (s.withStc { s.stc with now := s.stc.now + 1 }) else noEvent s

/-- MS_PULSE_END (R53, R54). -/
def execMsPulseEnd (ch : Fin 4) (s : State) : Host.Outcome State Fault Refusal :=
  if s.live && s.configured && s.msEndReached ch then
    event (((s.idleChannel ch).pulseEnded ch).settleSpill)
  else noEvent s

/-- The LIVE records of an origin (R101). -/
def State.liveOf (s : State) (o : Nat) : Nat := ((s.htu.of o).filter (fun r => !r.stale)).length

/-- The origin has LIVE records and has been silent for the staleness interval (R101). -/
def State.silentTooLong (s : State) (o : Nat) : Bool :=
  o != s.cfg.station && s.liveOf o != 0 &&
    (match s.htu.heard o with
      | some t => 3 * s.cfg.refreshPeriod ≤ (s.stc.now - t).toNat
      | none => false)

/-- Every LIVE record of an origin becomes STALE, with CLAIM STALE (R101). -/
def State.makeStale (s : State) (o : Nat) : State :=
  (s.withHtu { s.htu with
    table := s.htu.table.map (fun r => if r.origin = o then { r with stale := true } else r) }).notice
      .claimStale (some o) none (valueOf (s.liveOf o))

/-- CLAIM_STALE (R101). -/
def execClaimStale (o : Nat) (s : State) : Host.Outcome State Fault Refusal :=
  if s.live && s.configured && s.silentTooLong o then event (s.makeStale o) else noEvent s

/-- What an expiry of the refresh timer does (R109). -/
def State.refreshNow (s : State) : State :=
  if !s.ownClaims.isEmpty then
    (s.withHtu { s.htu with refresh := some (s.ahead s.cfg.refreshPeriod) }).request .claims
  else if 0 < s.htu.tail then
    (s.withHtu { s.htu with
      refresh := some (s.ahead s.cfg.refreshPeriod)
      tail := s.htu.tail - 1 }).request .claims
  else s.withHtu { s.htu with refresh := none }

/-- REFRESH_EXPIRY (R109). -/
def execRefreshExpiry (s : State) : Host.Outcome State Fault Refusal :=
  if s.live && s.onLine && s.expired s.htu.refresh then event s.refreshNow else noEvent s

/-- QUIET_EXPIRY (R150). -/
def execQuietExpiry (s : State) : Host.Outcome State Fault Refusal :=
  if s.live && s.lbi.mode == .quiet && s.expired s.lbi.quiet then
    event (s.withLbi { s.lbi with mode := .ready, quiet := none })
  else noEvent s

/-- DISCARD_EXPIRY (R135). -/
def execDiscardExpiry (s : State) : Host.Outcome State Fault Refusal :=
  if s.live && s.expired (s.rmu.pendingRead.map Prod.snd) then
    event (s.withRmu { s.rmu with pendingRead := none })
  else noEvent s

/-- The notice JOIN DONE for a state entered (R170). -/
def State.noticeJoinDone (entered : StationState) (s : State) : State :=
  s.notice .joinDone none none (valueOf (256 * entered.code + s.lcu.joinSync.code))

/-- The end of the join interval (R170, R94, R92). -/
def State.endJoin (s : State) (o : NoticeOrder) : State :=
  let s1 := s.withStc { s.stc with join := none }
  match s.lcu.joinSync with
  | .zeroed => s1.becomeActive.noticeJoinDone .active
  | .adopting => (s1.enterDesync o (State.noticeJoinDone .desync)).clearSync
  | .lagging => (s1.enterDesync o (State.noticeJoinDone .desync)).clearSync

/-- JOIN_DONE (R170). -/
def execJoinDone (o : NoticeOrder) (s : State) : Host.Outcome State Fault Refusal :=
  if s.live && s.stc.station == .joining && s.expired s.stc.join then event (s.endJoin o) else noEvent s

end Sys2Proof.Machine
end

