-- ==== Sys2Proof/Machine/Web.lean ====
section
/-! DEFINITION. Commands at the web-side lines: ENCODER_COUNT, ENCODER_ERROR and SENSOR_EDGE (01, 04). -/

namespace Sys2Proof.Machine

/-! ### The encoder (R1 to R5, R10) -/

/-- What a transition of the level pair is. -/
inductive Turn
  | forward
  | reverse
  | error
  | still
  deriving DecidableEq, Repr

/-- The transition from held levels to new ones, sense NORMAL (R1, R3). -/
def turnOf (held new : Level × Level) : Turn :=
  if held = new then .still
  else if held.1 ≠ new.1 ∧ held.2 ≠ new.2 then .error
  else
    match held, new with
    | (.low, .low), (.high, .low) => .forward
    | (.high, .low), (.high, .high) => .forward
    | (.high, .high), (.low, .high) => .forward
    | (.low, .high), (.low, .low) => .forward
    | _, _ => .reverse

/-- The direction sense of the configuration applied to a transition (R1). -/
def Turn.sensed (t : Turn) (sense : Sense) : Turn :=
  match sense, t with
  | .inverted, .forward => .reverse
  | .inverted, .reverse => .forward
  | _, t => t

/-- A forward count (R1, R5, R10), handed to the blocks as a movement. -/
def State.forwardCount (s : State) (order : List MoveBlock) : State :=
  let total := s.lcu.remainder + s.cfg.ratioN
  (s.withLcu { s.lcu with
    raw := s.lcu.raw + 1
    direction := .forward
    remainder := total % s.cfg.ratioD
    coord := s.lcu.coord + BitVec.ofNat 32 (total / s.cfg.ratioD)
    reverseRun := 0
    reverseSent := false }).movedFrom s.lcu.coord order

/-- The wu by which a reverse count moves the coordinate back (R5): as often as the remainder is below 0. -/
def reverseStep (remainder n d : Nat) : Nat :=
  if n ≤ remainder then 0 else (n - remainder + d - 1) / d

/-- Place REVERSE where the reverse run has passed the allowance and none has been sent for it (R10). -/
def State.noticeReverse (s : State) : State :=
  if s.cfg.reverseAllowance < s.lcu.reverseRun && !s.lcu.reverseSent then
    let s1 := s.notice .reverse none none (valueOf s.lcu.reverseRun)
    s1.withLcu { s1.lcu with reverseSent := true }
  else s

/-- A reverse count (R1, R5, R10). Its movement is backward and reaches nothing (R6). -/
def State.reverseCount (s : State) : State :=
  let k := reverseStep s.lcu.remainder s.cfg.ratioN s.cfg.ratioD
  (s.withLcu { s.lcu with
    raw := s.lcu.raw - 1
    direction := .reverse
    remainder := s.lcu.remainder + k * s.cfg.ratioD - s.cfg.ratioN
    coord := s.lcu.coord - BitVec.ofNat 32 k
    reverseRun := holdAdd 4294967295 s.lcu.reverseRun k }).noticeReverse

/-- Offer notice ENCODER under the limit of one outstanding; dropped at a full queue, it leaves the flag clear
(R4). -/
def State.noticeEncoder (s : State) : State :=
  if s.lcu.encoderOutstanding then s
  else
    let s1 := s.notice .encoder none none (valueOf s.stc.counters.encoderErrors)
    s1.withLcu { s1.lcu with encoderOutstanding := decide (s.lpt.notices.length < 32) }

/-- An encoder error (R3). -/
def State.encoderFault (s : State) : State :=
  ((s.count .encoderErrors).recordFault .encoderError s.cfg.station).noticeEncoder

/-- The Length Counting Unit decodes the levels now at the pins against those it holds (R1, R2, R3). -/
def State.decodeEncoder (s : State) (order : List MoveBlock) : State :=
  let new := (s.pins.enca, s.pins.encb)
  let s1 := s.withLcu { s.lcu with levels := some new }
  match s.lcu.levels with
  | none => s1
  | some held =>
    match (turnOf held new).sensed s.cfg.sense with
    | .forward => s1.forwardCount order
    | .reverse => s1.reverseCount
    | .error => s1.encoderFault
    | .still => s1

/-- One encoder line changes its level. -/
def Pins.toggle (p : Pins) (line : EncoderLine) : Pins :=
  match line with
  | .enca => { p with enca := p.enca.flip }
  | .encb => { p with encb := p.encb.flip }

/-- ENCODER_COUNT (R1, R5): one line changes. Outside the configured states, and in reset, only the pin changes
(R2). -/
def execEncoderCount (line : EncoderLine) (order : List MoveBlock) (s : State) :
    Host.Outcome State Fault Refusal :=
  let s1 := s.withPins (s.pins.toggle line)
  if s.live && s.configured then event (s1.decodeEncoder order) else noEvent s1

/-- ENCODER_ERROR (R3): both lines change together. -/
def execEncoderError (s : State) : Host.Outcome State Fault Refusal :=
  let s1 := s.withPins ((s.pins.toggle .enca).toggle .encb)
  if s.live && s.configured then event (s1.decodeEncoder []) else noEvent s1

/-! ### Sensor edges (R64 to R72) -/

/-- A mark stated by an edge on a SOURCE sensor (R28, R66). -/
def State.sourceMark (s : State) (kind : MarkKind) (lanes : Lanes) (position : Coord) : State :=
  let m := s.ownMarkFrame kind position lanes 0
  let s1 := ((s.consumeNumber position).offerMark (m.ownOffer s.cfg.station)).1
  if s1.lbi.normalFree then s1.withLbi (s1.lbi.queueNormal (.mark m))
  else s1.notice .markNotSent (some s.cfg.station) (some m.number)

/-- A trim: the coordinate moves by a signed number of wu, as one movement (R8, R74). A trim of 0 makes none. -/
def State.trim (s : State) (t : Int) (order : List MoveBlock) : State :=
  if t = 0 then s
  else (s.withLcu { s.lcu with coord := s.lcu.coord + ofSigned t }).movedFrom s.lcu.coord order

/-- RUNOK, low at first, rose to `high` and is low again, all in one event: a flash (R112, log 6). -/
def State.countFlash (s first high : State) : State :=
  if first.runokLevel = .low && high.runokLevel = .high && s.runokLevel = .low then
    s.withHtu { s.htu with flashes := s.htu.flashes + 1 }
  else s

/-- An edge taken for a window (R71, R72). That the spill entry of the retirement stands before SIGHTED or TRIM LIMIT is
the model's choice (log 30). -/
def State.captureWindow (s : State) (n : Fin 4) (w : Window) (order : List MoveBlock) : State :=
  let e := (s.lcu.coord - w.centre).toInt
  let s1 := ((s.removeWindow n w).windowClosed w true).settleSpill
  if e.natAbs ≤ s.cfg.trimLimit then
    let s2 := (s1.withScu { s1.scu with misses := 0 }).releaseSightClaim
    ((s2.noticeMark .sighted w.mark (packTop n.val (ofSigned e))).trim (trimOf s.cfg.trimGain e) order).countFlash s s2
  else s1.noticeMark .trimLimit w.mark (packTop n.val (ofSigned (clampError e)))

/-- An edge on a SIGHT sensor is taken for one window at most (R70). -/
def State.sightEdge (s : State) (n : Fin 4) (order : List MoveBlock) : State :=
  match servedWindow (s.scu.windows.get n) with
  | none => s
  | some w => s.captureWindow n w order

/-- The last capture of a sensor becomes the coordinate and the time now (R65). -/
def State.capture (s : State) (n : Fin 4) : State :=
  s.withScu { s.scu with captures := s.scu.captures.set n (some (s.lcu.coord, s.stc.now)) }

/-- An edge reaches the Sensor Capture Unit: taken or ignored, and handled by its function (R65 to R67). -/
def State.takeEdge (s : State) (n : Fin 4) (order : List MoveBlock) : State :=
  if s.isActive && s.lcu.direction == .forward then
    match (s.cfg.sensors.get n).function with
    | .off => s
    | .source kind lanes =>
      (s.capture n).sourceMark kind lanes (s.lcu.coord - ofSigned (s.cfg.sensors.get n).offset)
    | .sight => (s.capture n).sightEdge n order
    | .cut => (s.capture n).sensorCut s.lcu.coord
  else s

/-- The filtered level of a sensor becomes a level its pin has held; a change the setting names is an edge (R64). -/
def State.filterLevel (s : State) (n : Fin 4) (level : Level) (order : List MoveBlock) : State :=
  let s1 := s.withScu { s.scu with filtered := s.scu.filtered.set n (some level) }
  match s.scu.filtered.get n with
  | none => s1
  | some held => if edgeNamed (s.cfg.sensors.get n).edge held level then s1.takeEdge n order else s1

/-- SENSOR_EDGE (R64, R65): a sensor pin has settled at a level. In UNCONFIGURED, and in reset, only the pin
changes. -/
def execSensorEdge (n : Fin 4) (level : Level) (order : List MoveBlock) (s : State) :
    Host.Outcome State Fault Refusal :=
  let s1 := s.withPins { s.pins with sensors := s.pins.sensors.set n level }
  if s.live && s.configured then event (s1.filterLevel n level order) else noEvent s1

end Sys2Proof.Machine
end

