-- ==== Sys2Proof/Machine/Dispatch.lean ====
section
/-! DEFINITION. What each command does: one arm per constructor of Instr. -/

namespace Sys2Proof.Machine

def exec (i : Instr) (s : State) : Host.Outcome State Fault Refusal :=
  match i with
  | .coldReset lcs => Sys2Proof.Machine.execColdReset lcs s
  | .encoderCount line order => Sys2Proof.Machine.execEncoderCount line order s
  | .encoderError => Sys2Proof.Machine.execEncoderError s
  | .sensorEdge sensor level order => Sys2Proof.Machine.execSensorEdge sensor level order s
  | .timebaseAdvance => Sys2Proof.Machine.execTimebaseAdvance s
  | .msPulseEnd channel => Sys2Proof.Machine.execMsPulseEnd channel s
  | .claimStale origin => Sys2Proof.Machine.execClaimStale origin s
  | .refreshExpiry => Sys2Proof.Machine.execRefreshExpiry s
  | .quietExpiry => Sys2Proof.Machine.execQuietExpiry s
  | .discardExpiry => Sys2Proof.Machine.execDiscardExpiry s
  | .joinDone notices => Sys2Proof.Machine.execJoinDone notices s
  | .lineIdle => Sys2Proof.Machine.execLineIdle s
  | .yieldGapEnd => Sys2Proof.Machine.execYieldGapEnd s
  | .attemptStart => Sys2Proof.Machine.execAttemptStart s
  | .arbitrationLost => Sys2Proof.Machine.execArbitrationLost s
  | .frameAborted => Sys2Proof.Machine.execFrameAborted s
  | .ownFrameEnd => Sys2Proof.Machine.execOwnFrameEnd s
  | .receiveError bits => Sys2Proof.Machine.execReceiveError bits s
  | .validFrameEnd bits notices => Sys2Proof.Machine.execValidFrameEnd bits notices s
  | .markFrame notices => Sys2Proof.Machine.execMarkFrame notices s
  | .zeroFrame => Sys2Proof.Machine.execZeroFrame s
  | .zeroLoopback => Sys2Proof.Machine.execZeroLoopback s
  | .cutoverLoopback => Sys2Proof.Machine.execCutoverLoopback s
  | .holdFrame => Sys2Proof.Machine.execHoldFrame s
  | .releaseFrame => Sys2Proof.Machine.execReleaseFrame s
  | .dismissFrame => Sys2Proof.Machine.execDismissFrame s
  | .claimsFrame notices => Sys2Proof.Machine.execClaimsFrame notices s
  | .censusFrame => Sys2Proof.Machine.execCensusFrame s
  | .cutoverFrame => Sys2Proof.Machine.execCutoverFrame s
  | .localTransaction bits => Sys2Proof.Machine.execLocalTransaction bits s
  | .configure => Sys2Proof.Machine.execConfigure s
  | .restart => Sys2Proof.Machine.execRestart s
  | .readState => Sys2Proof.Machine.execReadState s
  | .readCounters => Sys2Proof.Machine.execReadCounters s
  | .takeNotices => Sys2Proof.Machine.execTakeNotices s
  | .readMarks => Sys2Proof.Machine.execReadMarks s
  | .postMark => Sys2Proof.Machine.execPostMark s
  | .zero => Sys2Proof.Machine.execZero s
  | .readHolds => Sys2Proof.Machine.execReadHolds s
  | .hold => Sys2Proof.Machine.execHold s
  | .release => Sys2Proof.Machine.execRelease s
  | .dismiss => Sys2Proof.Machine.execDismiss s
  | .cutoverAt => Sys2Proof.Machine.execCutoverAt s
  | .cutoverNow => Sys2Proof.Machine.execCutoverNow s
  | .cancelCutover => Sys2Proof.Machine.execCancelCutover s
  | .readRoll => Sys2Proof.Machine.execReadRoll s
  | .freeRoll => Sys2Proof.Machine.execFreeRoll s
  | .undefined => Sys2Proof.Machine.execUndefined s
  | .startBitRead => Sys2Proof.Machine.execStartBitRead s
  | .resetnHeldLow => Sys2Proof.Machine.execResetnHeldLow s

end Sys2Proof.Machine
end

