-- ==== Sys2Proof/Safety.lean ====
section
/-! DEFINITION. What the statements call a good state, and what a command may leave unchanged: the bounds and
agreements the rules give the part, and the frames. -/

namespace Sys2Proof.Machine

/-- A step from a state is safe: it ends in a next state. -/
def StepSafe (s : State) : Prop := ∃ t, step s = .next t

/-- The output pins, RUNOK, ATTN and LTX are as the state drives them (R46, R47, R112, R140, R173, R187, log 6). -/
def PinsDriven (s : State) : Prop := s.driven = s

/-- While the part decodes, the encoder levels held are those at the pins (R1, R2). -/
def LevelsFollowPins (s : State) : Prop :=
  s.live = true → s.configured = true → s.lcu.levels = some (s.pins.enca, s.pins.encb)

/-- The edges counted on an output pin are odd in number exactly while it is high; while UNCONFIGURED every channel is
IDLE (R46, R47). -/
def EdgesFollowPins (s : State) : Prop :=
  s.live = true → ∀ ch, (s.outputLevel ch = .high ↔ s.aou.edges.get ch % 2 = 1) ∧
    (s.configured = false → (s.aou.channels.get ch).state = .idle)

/-! ### Bounds, block by block -/

/-- Each lifetime counter is at most 65,535 (R176). -/
structure CountersOk (c : Counters) : Prop where
  framesAborted : c.framesAborted ≤ 65535
  framesDropped : c.framesDropped ≤ 65535
  receiveErrors : c.receiveErrors ≤ 65535
  inboundOverruns : c.inboundOverruns ≤ 65535
  marksSpilled : c.marksSpilled ≤ 65535
  gaps : c.gaps ≤ 65535
  setsLost : c.setsLost ≤ 65535
  encoderErrors : c.encoderErrors ≤ 65535

/-- No counter of the second is below the first's (R176). -/
structure CountersRise (c d : Counters) : Prop where
  framesAborted : c.framesAborted ≤ d.framesAborted
  framesDropped : c.framesDropped ≤ d.framesDropped
  receiveErrors : c.receiveErrors ≤ d.receiveErrors
  inboundOverruns : c.inboundOverruns ≤ d.inboundOverruns
  marksSpilled : c.marksSpilled ≤ d.marksSpilled
  gaps : c.gaps ≤ d.gaps
  setsLost : c.setsLost ≤ d.setsLost
  encoderErrors : c.encoderErrors ≤ d.encoderErrors

/-- The notice queue and the lost-notice count (R184). -/
structure LptOk (l : Lpt) : Prop where
  notices : l.notices.length ≤ 32
  lost : l.lost ≤ 65535

/-- Two records of one mark: the same origin from 1 to 24 and the same mark number (R20). -/
def SameMark (a b : MarkRecord) : Prop :=
  validStation a.origin = true ∧ a.number.isSome = true ∧ a.origin = b.origin ∧ a.number = b.number

/-- Two records are not of one mark, and have names of their own (R20, log 10). -/
def Apart (a b : MarkRecord) : Prop := ¬ SameMark a b ∧ a.uid ≠ b.uid

/-- The mark queue: at most 64 records, no two of one mark, each with a name of its own below the next one to give
(log 10); the spill count holds at 65,535 (R20, R30). -/
structure MkeOk (m : Mke) : Prop where
  room : m.queue.length ≤ 64
  distinct : m.queue.Pairwise Apart
  names : ∀ r ∈ m.queue, r.uid < m.nextUid
  spill : ∀ sp, m.spill = some sp → sp.count ≤ 65535

/-- The merge counts (R46). -/
def AouOk (a : Aou) : Prop := ∀ i, (a.channels.get i).merges ≤ 255

/-- The miss count (R73). -/
def ScuOk (x : Scu) : Prop := x.misses ≤ 255

/-- A set number: 1 to 65,535 (R117). -/
abbrev SetNumber (n : Nat) : Prop := 1 ≤ n ∧ n ≤ 65535

/-- A roll set: a set number, at most 256 entries, and a dropped count that holds at 65,535 (R117, R118, R119). -/
structure SetOk (r : RollSet) : Prop where
  number : SetNumber r.number
  entries : r.entries.length ≤ 256
  dropped : r.dropped ≤ 65535

/-- A closed set: its end length is 1 to 2,147,483,647 wu, and every entry ends in it (R122). -/
structure ClosedOk (c : ClosedSet) : Prop where
  set : SetOk c.set
  length : 1 ≤ c.endLength ∧ c.endLength ≤ 2147483647
  inside : ∀ e ∈ c.set.entries, e.position + e.extent ≤ c.endLength

/-- The roll sets, and the number the next one takes (R117, R118, R119, R122). -/
structure RmuOk (r : Rmu) : Prop where
  nextSet : SetNumber r.nextSet
  room : r.closed.length ≤ 4
  closed : ∀ c ∈ r.closed, ClosedOk c
  current : ∀ c, r.current = some c → SetOk c
  next : ∀ c, r.next = some c → SetOk c

/-- The hold table: one record for each origin and claim number, in increasing order (R96). -/
structure TableOk (table : List HoldRecord) : Prop where
  sorted : table.Pairwise (fun a b => a.key < b.key)
  claims : ∀ r ∈ table, r.claim < 4

/-- The hold table of the part: as `TableOk`, at most 96 records, each of a station of the line, of which this one is
one; empty while UNCONFIGURED, and this station's own records LIVE (R96, R114). -/
structure HoldsOk (s : State) : Prop where
  table : TableOk s.htu.table
  room : s.htu.table.length ≤ 96
  origins : ∀ r ∈ s.htu.table, 1 ≤ r.origin ∧ r.origin ≤ 24
  station : s.configured = true → 1 ≤ s.cfg.station ∧ s.cfg.station ≤ 24
  unconfigured : s.configured = false → s.htu.table = []
  own : ∀ r ∈ s.htu.table, r.origin = s.cfg.station → r.stale = false

/-- The places of the outbound queue and the deferred requests (R158, R160). -/
structure OutboundOk (l : Lbi) : Prop where
  places : l.queued + l.reserved ≤ 16
  normal : l.normal.length ≤ 12
  claims : l.normal.count .claims ≤ 1
  census : l.normal.count .census ≤ 1
  deferred : l.deferred.Nodup
  waiting : ∀ r ∈ l.deferred, r.frame ∉ l.normal

/-- The counts of the Line Bus Interface: inbound entries (R154), recessive run (R141), failed attempts (R149). -/
structure LbiOk (l : Lbi) : Prop where
  inbound : l.inbound.length ≤ 8
  run : l.recessiveRun ≤ 255
  failed : ∀ x, l.slot = some x → x.failed ≤ 7

/-- The remainder of the scaling: 0 to D − 1, and 0 while no configuration gives D (R5, R15). -/
structure LcuOk (s : State) : Prop where
  ratioD : 1 ≤ s.cfg.ratioD
  remainder : s.lcu.remainder < s.cfg.ratioD
  unconfigured : s.configured = false → s.lcu.remainder = 0

/-- The bounds of the queues and counts of the part, but for the hold table (`HoldsOk`) and the outbound queue
(`OutboundOk`); between events no spill entry is owed (log 10). -/
structure Bounded (s : State) : Prop where
  lcu : LcuOk s
  reverseRun : s.lcu.reverseRun ≤ 4294967295
  mke : MkeOk s.mke
  settled : s.mke.retired = 0
  aou : AouOk s.aou
  scu : ScuOk s.scu
  tail : s.htu.tail ≤ 3
  rmu : RmuOk s.rmu
  lbi : LbiOk s.lbi
  counters : CountersOk s.stc.counters
  lpt : LptOk s.lpt

/-! ### Frames -/

/-- Station Control keeps everything but the last fault record and the lifetime counters. -/
structure SameStation (c d : Stc) : Prop where
  station : d.station = c.station
  config : d.config = c.config
  locked : d.locked = c.locked
  join : d.join = c.join
  now : d.now = c.now

/-- The Mark Engine keeps its origin table and its own numbering. -/
structure SameNumbering (m n : Mke) : Prop where
  origins : n.origins = m.origins
  nextNumber : n.nextNumber = m.nextNumber
  freshPending : n.freshPending = m.freshPending
  lastPosted : n.lastPosted = m.lastPosted
  freeUsed : n.freeUsed = m.freeUsed

/-- What actions, marks and closes of roll sets leave unchanged, whatever they do: the whole Length Counting Unit,
the numbering of marks, the sensor levels and captures, the last-heard times and the tail, the next set number, all
of the Line Bus Interface but the outbound queue, the station, the response slot, the pins and the commands
waiting. -/
structure WebFrame (s t : State) : Prop where
  lcu : t.lcu = s.lcu
  mke : SameNumbering s.mke t.mke
  filtered : t.scu.filtered = s.scu.filtered
  captures : t.scu.captures = s.scu.captures
  lastHeard : t.htu.lastHeard = s.htu.lastHeard
  tail : t.htu.tail = s.htu.tail
  nextSet : t.rmu.nextSet = s.rmu.nextSet
  lbi : t.lbi = { s.lbi with urgent := t.lbi.urgent, normal := t.lbi.normal }
  stc : SameStation s.stc t.stc
  slot : t.lpt.slot = s.lpt.slot
  pins : t.pins = s.pins
  pending : t.pending = s.pending

/-- What an entry to DESYNC does to the blocks, but for its notices and Station Control (R92, R38, R61, R78, R136,
R108): the synchronised flag is cleared, the mark queue with its spill record and the origin table are emptied, every
channel is IDLE, one that was active making its edge, windows, captures and misses are gone, the sets being wound are
UNCERTAIN, claim 3 is held for DESYNC, and CENSUS is asked for. -/
structure EntersDesync (s t : State) : Prop where
  lcu : t.lcu = { s.lcu with synced := false }
  mke : t.mke = { s.mke with queue := [], spill := none, origins := List.replicate 24 .unknown }
  channels : ∀ ch, t.aou.channels.get ch = ⟨.idle, 0⟩
  edges : ∀ ch, t.aou.edges.get ch = s.aou.edges.get ch + (if (s.aou.channels.get ch).state = .idle then 0 else 1)
  scu : t.scu = { s.scu with windows := .all [], captures := .all none, misses := 0 }
  rmu : t.rmu = { s.rmu with
    current := s.rmu.current.map (fun c => { c with uncertain := true })
    next := s.rmu.next.map (fun c => { c with uncertain := true }) }
  claim : t.holdsFor 3 .desync = true
  census : s.lbi.accepts = true → t.lbi.normal.contains .census = true ∨ t.lbi.deferred.contains .census = true

/-! ### What a command finds waiting -/

/-- The oldest inbound entry is `e`, of kind `k`, and is to be taken next (R155). -/
structure FrameNext (s : State) (k : FrameKind) (e : InEntry) : Prop where
  live : s.live = true
  configured : s.configured = true
  first : s.lbi.loopbackFirst = false
  oldest : s.lbi.inbound.head? = some e
  kind : e.frame.kind = k

/-- The loopback is `b`, of kind `k`, and is to be taken next (R83, R155). -/
structure LoopbackNext (s : State) (k : FrameKind) (b : Loopback) : Prop where
  live : s.live = true
  configured : s.configured = true
  held : s.lbi.loopback = some b
  first : b.ahead = 0
  kind : b.frame.kind = k

/-- The state with its oldest inbound entry gone (R155). -/
def State.dequeued (s : State) : State := s.withLbi s.lbi.dropOldest

/-- The state with its loopback gone (R155). -/
def State.looped (s : State) : State := s.withLbi { s.lbi with loopback := none }

/-- The response slot prepares request `r` with payload `p` of its length, the station state admits it, and the part
is not held in reset (R166, R178, R181). -/
structure Requested (s : State) (r : Request) (p : List Byte) : Prop where
  live : s.live = true
  slot : s.lpt.slot = .preparing r.code p
  admitted : r.refusal s.stc.station = none
  length : p.length = r.length

/-- The command that takes a request with payload `p`; the table has two for CUTOVER (log 11). -/
def Request.command (r : Request) (p : List Byte) : Instr :=
  match r with
  | .configure => .configure
  | .restart => .restart
  | .readState => .readState
  | .readCounters => .readCounters
  | .takeNotices => .takeNotices
  | .readMarks => .readMarks
  | .postMark => .postMark
  | .zero => .zero
  | .readHolds => .readHolds
  | .hold => .hold
  | .release => .release
  | .dismiss => .dismiss
  | .cutover => if byteAt p 0 = 1 then .cutoverNow else .cutoverAt
  | .cancelCutover => .cancelCutover
  | .readRoll => .readRoll
  | .freeRoll => .freeRoll

/-- The part decodes, and the encoder levels it holds are `held` (R1, R2). -/
structure EncoderHeld (s : State) (held : Level × Level) : Prop where
  live : s.live = true
  configured : s.configured = true
  levels : s.lcu.levels = some held

/-- The next levels of the encoder lines in the forward direction, sense NORMAL (the table of R1). -/
def forwardLevels : Level × Level → Level × Level
  | (.low, .low) => (.high, .low)
  | (.high, .low) => (.high, .high)
  | (.high, .high) => (.low, .high)
  | (.low, .high) => (.low, .low)

/-- A transition of the encoder lines is a forward count under a sense (R1). -/
def ForwardTurn (sense : Sense) (held new : Level × Level) : Prop :=
  (sense = .normal ∧ new = forwardLevels held) ∨ (sense = .inverted ∧ held = forwardLevels new)

/-- A transition of the encoder lines is a reverse count under a sense (R1). -/
def ReverseTurn (sense : Sense) (held new : Level × Level) : Prop :=
  (sense = .normal ∧ held = forwardLevels new) ∨ (sense = .inverted ∧ new = forwardLevels held)

end Sys2Proof.Machine
end

