-- ==== Sys2Proof/Certificates/Slice0/Obligations.lean ====
section
/-! DEFINITION. The statements for the provers. -/

section

open Sys2Proof Sys2Proof.Machine

/-! ### The step, the reset and the life of the part -/

/-- A step takes the command at the front of the queue and runs it with the queue's rest; with no command waiting the
part idles (log 1). -/
def Obligations.StepRunsTheCommandAtTheFront : Prop :=
  ∀ s : State,
    (∀ c rest, s.pending = c :: rest → step s = exec c (s.withPending rest)) ∧
    (s.pending = [] → step s = .next s)

/-- No command stops the part, and none touches the commands waiting behind it. That a command answers where its event
cannot arise, changing nothing, is the model's choice (log 2), and so is the queue of commands waiting (log 1). -/
def Obligations.EveryCommandAnswersANextState : Prop :=
  ∀ (c : Instr) (s : State), ∃ t : State, exec c s = .next t ∧ t.pending = s.pending

/-- The state after reset is good by every invariant stated here. -/
def Obligations.ResetStateIsGood : Prop :=
  PinsDriven State.reset ∧ Bounded State.reset ∧ HoldsOk State.reset ∧ OutboundOk State.reset.lbi ∧
    LevelsFollowPins State.reset ∧ EdgesFollowPins State.reset

/-- A cold reset leaves the Line Bus Interface as R164 says, and the Roll Map Unit as R138 says. -/
def Obligations.ColdResetLeavesLineAndRollEmpty : Prop :=
  ∀ (lcs : Level) (s : State), ∃ t : State, exec (.coldReset lcs) s = .next t ∧
    t.lbi.mode = .off ∧ t.pins.ltx = .recessive ∧ t.lbi.line = .waitIdle ∧ t.lbi.recessiveRun = 0 ∧
    t.lbi.yieldPending = false ∧ t.lbi.quiet = none ∧ t.lbi.urgent = [] ∧ t.lbi.normal = [] ∧ t.lbi.slot = none ∧
    t.lbi.deferred = [] ∧ t.lbi.inbound = [] ∧ t.lbi.loopback = none ∧ t.lbi.overrunRun = false ∧
    t.lbi.errorRun = false ∧ t.lbi.attempt = none ∧ t.stc.counters = ⟨0, 0, 0, 0, 0, 0, 0, 0⟩ ∧
    t.rmu.current = none ∧ t.rmu.next = none ∧ t.rmu.closed = [] ∧ t.rmu.nextSet = 1 ∧ t.rmu.pendingRead = none

/-- A cold reset gives every other block its cold value and drives the outputs low. That the input pins stay as they
are is the model's choice (log 5), and so are its counts of free values, which goes on (log 9), and of edges and
flashes, which start again (log 6). -/
def Obligations.ColdResetRestoresEveryBlock : Prop :=
  ∀ (lcs : Level) (s : State), ∃ t : State, exec (.coldReset lcs) s = .next t ∧
    t.stc = ⟨.unconfigured, none, false, none, 0, none, ⟨0, 0, 0, 0, 0, 0, 0, 0⟩⟩ ∧
    t.lcu = ⟨none, 0, .forward, 0, 0, false, 0, none, .adopting, 0, false, false⟩ ∧
    t.mke.queue = [] ∧ t.mke.spill = none ∧ t.mke.origins = List.replicate 24 .unknown ∧ t.mke.nextNumber = 0 ∧
    t.mke.freshPending = true ∧ t.mke.lastPosted = none ∧ t.mke.freeUsed = s.mke.freeUsed ∧
    (∀ ch, t.aou.channels.get ch = ⟨.idle, 0⟩ ∧ t.aou.edges.get ch = 0) ∧
    (∀ n, t.scu.filtered.get n = none ∧ t.scu.captures.get n = none ∧ t.scu.windows.get n = []) ∧ t.scu.misses = 0 ∧
    t.htu = ⟨[], List.replicate 24 none, none, 0, 0⟩ ∧
    t.lpt.notices = [] ∧ t.lpt.lost = 0 ∧ t.lpt.slot = .ready ⟨0, .none, []⟩ ∧
    t.pins.resetn = .high ∧ t.pins.runok = .low ∧ t.pins.attn = .low ∧ (∀ ch, t.pins.outputs.get ch = .low) ∧
    t.pins.lcs = lcs ∧ t.pins.ldoDriven = decide (lcs = .low) ∧ t.pins.enca = s.pins.enca ∧
    t.pins.encb = s.pins.encb ∧ t.pins.sensors = s.pins.sensors

/-- RESETN low drives every output low and LTX recessive, LDO only where LCS is low, and until the cold reset no
command changes anything but the input pins. That the blocks keep their contents meanwhile is the model's choice (log
19), and so are that LDO is driven in reset and that the level of LCS is not followed there (log 12). -/
def Obligations.HeldInResetNothingActs : Prop :=
  (∀ s : State, exec .resetnHeldLow s = .next ((s.withPins { s.pins with
      resetn := .low, outputs := .all .low, ltx := .recessive, runok := .low, attn := .low
      ldoDriven := decide (s.pins.lcs = .low) }).withLbi { s.lbi with attempt := none })) ∧
  (∀ (c : Instr) (s t : State), s.pins.resetn = .low → (∀ lcs, c ≠ .coldReset lcs) → c ≠ .resetnHeldLow →
    exec c s = .next t →
    t = s.withPins { s.pins with enca := t.pins.enca, encb := t.pins.encb, sensors := t.pins.sensors })

/-- The driven pins follow the state at every step, and LDO is driven exactly while LCS is low. While the part decodes,
the encoder levels it holds are those at its pins. The edges counted on an output pin (log 6) stay odd in number exactly
while the pin is high, and while UNCONFIGURED every channel is IDLE. -/
def Obligations.StepKeepsPins : Prop :=
  (∀ s t : State, PinsDriven s → step s = .next t → PinsDriven t ∧ (t.pins.ldoDriven = true ↔ t.pins.lcs = .low)) ∧
  (∀ s t : State, LevelsFollowPins s → step s = .next t → LevelsFollowPins t) ∧
  (∀ s t : State, EdgesFollowPins s → step s = .next t → EdgesFollowPins t)

/-- At every step the remainder, the reverse run, the mark queue, the spill count, the merge counts, the miss count,
the tail, the roll sets and their numbers, the inbound buffer, the recessive run, the failed attempts, the lifetime
counters, the notices and the lost-notice count stay within their bounds; the hold table and the outbound queue have
statements of their own. That records have names, and that no spill entry is owed between events, is the model's own
(log 10). -/
def Obligations.StepKeepsBounds : Prop :=
  ∀ s t : State, Bounded s → step s = .next t → Bounded t

/-- The hold table stays in order, one record for each claim and at most 96, each of a station of the line, empty while
UNCONFIGURED, with this station's own records LIVE. -/
def Obligations.StepKeepsHoldTable : Prop :=
  ∀ s t : State, HoldsOk s → step s = .next t → HoldsOk t

/-- The outbound queue keeps its places, reserved ones included, and never holds two CLAIMS or two CENSUS frames. -/
def Obligations.StepKeepsOutboundQueue : Prop :=
  ∀ s t : State, OutboundOk s.lbi → step s = .next t → OutboundOk t.lbi

/-- RUNOK after every step is high exactly when the station is ACTIVE and its hold table holds no record (R112); it is
low in reset (R173). ATTN is high exactly while the notice queue holds a notice, and low in reset (R187). -/
def Obligations.RunokAndAttn : Prop :=
  ∀ s t : State, PinsDriven s → step s = .next t →
    (t.pins.runok = .high ↔ t.pins.resetn = .high ∧ t.stc.station = .active ∧ t.htu.table = []) ∧
    (t.pins.runok = .low ↔ ¬ (t.pins.resetn = .high ∧ t.stc.station = .active ∧ t.htu.table = [])) ∧
    (t.pins.attn = .high ↔ t.pins.resetn = .high ∧ t.lpt.notices ≠ []) ∧
    (t.pins.attn = .low ↔ ¬ (t.pins.resetn = .high ∧ t.lpt.notices ≠ []))

/-- A lifetime counter never decreases except at a cold reset, and never passes 65,535. Once configured, a station
keeps its configuration and its lock until a cold reset; before, only CONFIGURE stores one. -/
def Obligations.OnlyAColdResetTakesBack : Prop :=
  ∀ (c : Instr) (s t : State), (∀ lcs, c ≠ .coldReset lcs) → exec c s = .next t →
    CountersRise s.stc.counters t.stc.counters ∧ (CountersOk s.stc.counters → CountersOk t.stc.counters) ∧
    (s.stc.station ≠ .unconfigured →
      t.stc.config = s.stc.config ∧ t.stc.locked = s.stc.locked ∧ t.stc.station ≠ .unconfigured) ∧
    (s.stc.station = .unconfigured → c ≠ .configure → t.stc = { s.stc with
      now := t.stc.now, fault := t.stc.fault, counters := t.stc.counters })

/-- A SILENT station stays SILENT and MUTE, with nothing to send and no attempt, until a cold reset. -/
def Obligations.SilentUntilColdReset : Prop :=
  ∀ (c : Instr) (s t : State), (∀ lcs, c ≠ .coldReset lcs) → exec c s = .next t →
    s.stc.station = .silent → s.lbi.mode = .mute → s.lbi.attempt = none → s.lbi.slot = none →
    s.lbi.urgent = [] → s.lbi.normal = [] → s.lbi.deferred = [] →
    t.stc.station = .silent ∧ t.lbi.mode = .mute ∧ t.lbi.attempt = none ∧ t.lbi.slot = none ∧
      t.lbi.urgent = [] ∧ t.lbi.normal = [] ∧ t.lbi.deferred = []

/-! ### The encoder and the coordinate -/

/-- A forward count moves raw count, remainder and coordinate by the scaling and ends the reverse run. Where it moves
the coordinate, each block takes the movement once, in the order given; the movement leaves the Length Counting Unit
alone, and a count that moves the coordinate by nothing has no other effect. That the order is an operand is the
model's choice (log 7). -/
def Obligations.ForwardCountScales : Prop :=
  ∀ (line : EncoderLine) (order : List MoveBlock) (s : State) (held new : Level × Level),
    EncoderHeld s held → new = ((s.pins.toggle line).enca, (s.pins.toggle line).encb) →
    ForwardTurn s.cfg.sense held new → 1 ≤ s.cfg.ratioD →
    ∃ (k rem : Nat) (u : State), k * s.cfg.ratioD + rem = s.lcu.remainder + s.cfg.ratioN ∧ rem < s.cfg.ratioD ∧
      exec (.encoderCount line order) s = .next u.driven ∧
      (
        let base := (s.withPins (s.pins.toggle line)).withLcu { s.lcu with
          levels := some new, raw := s.lcu.raw + 1, direction := .forward, remainder := rem
          coord := s.lcu.coord + BitVec.ofNat 32 k, reverseRun := 0, reverseSent := false }
        WebFrame base u ∧ (k = 0 → u = base) ∧
        (before s.lcu.coord base.lcu.coord = true → wellFormedOrder order = true →
          u = order.foldl (fun v block => match block with
            | .mke => v.mkeMove s.lcu.coord base.lcu.coord
            | .scu => v.scuMove s.lcu.coord base.lcu.coord
            | .aou => v.aouMove s.lcu.coord base.lcu.coord
            | .rmu => v.rmuMove s.lcu.coord base.lcu.coord) base))

/-- A reverse count moves raw count, remainder and coordinate back, adds to the reverse run, and places REVERSE where
the run passes the allowance for the first time. It undoes exactly the forward count it follows: with r the remainder
before both, it moves the coordinate back by what the forward count moved it, and the remainder is r again. -/
def Obligations.ReverseCountScales : Prop :=
  (∀ (line : EncoderLine) (order : List MoveBlock) (s : State) (held new : Level × Level),
    EncoderHeld s held → new = ((s.pins.toggle line).enca, (s.pins.toggle line).encb) →
    ReverseTurn s.cfg.sense held new → 1 ≤ s.cfg.ratioD → s.lcu.remainder < s.cfg.ratioD →
    s.lcu.reverseRun ≤ 4294967295 →
    ∃ k rem : Nat, rem + s.cfg.ratioN = s.lcu.remainder + k * s.cfg.ratioD ∧ rem < s.cfg.ratioD ∧
      (
        let run := min 4294967295 (s.lcu.reverseRun + k)
        let base := (s.withPins (s.pins.toggle line)).withLcu { s.lcu with
          levels := some new, raw := s.lcu.raw - 1, direction := .reverse, remainder := rem
          coord := s.lcu.coord - BitVec.ofNat 32 k, reverseRun := run }
        exec (.encoderCount line order) s = .next
          (if s.cfg.reverseAllowance < run ∧ s.lcu.reverseSent = false then
            (base.notice .reverse none none (some (BitVec.ofNat 32 run))).withLcu
              { base.lcu with reverseSent := true }
          else base).driven)) ∧
  (∀ r n d : Nat, 1 ≤ d → r < d →
    reverseStep ((r + n) % d) n d = (r + n) / d ∧
    (r + n) % d + reverseStep ((r + n) % d) n d * d - n = r)

/-- A transition of both encoder lines makes no count: it is counted, recorded, and noticed where no ENCODER notice is
outstanding; a notice dropped at a full queue leaves the flag clear. -/
def Obligations.EncoderErrorMakesNoCount : Prop :=
  ∀ s : State, EncoderHeld s (s.pins.enca, s.pins.encb) →
    (
      let new := (s.pins.enca.flip, s.pins.encb.flip)
      let errors := holdInc 65535 s.stc.counters.encoderErrors
      let counted := ((s.withPins { s.pins with enca := new.1, encb := new.2 }).withLcu
          { s.lcu with levels := some new }).withStc { s.stc with
            counters := { s.stc.counters with encoderErrors := errors }
            fault := some ⟨.encoderError, s.stc.now, s.cfg.station⟩ }
      exec .encoderError s = .next
        (if s.lcu.encoderOutstanding then counted
        else
          (counted.notice .encoder none none (some (BitVec.ofNat 32 errors))).withLcu { counted.lcu with
            encoderOutstanding := decide (s.lpt.notices.length < 32) }).driven)

/-! ### Sensors and sightings -/

/-- A settled level becomes the filtered level. Where it is no edge the setting names, or the edge is not taken
(function OFF, station not ACTIVE, or last direction REVERSE), that is all. An edge taken on a SIGHT sensor with no
open window is captured besides. -/
def Obligations.EdgeOnlyFiltersOrCaptures : Prop :=
  ∀ (n : Fin 4) (level : Level) (order : List MoveBlock) (s : State), s.live = true → s.configured = true →
    (
      let base := (s.withPins { s.pins with sensors := s.pins.sensors.set n level }).withScu
        { s.scu with filtered := s.scu.filtered.set n (some level) }
      ((s.scu.filtered.get n = none ∨
          (∃ held, s.scu.filtered.get n = some held ∧ edgeNamed (s.cfg.sensors.get n).edge held level = false) ∨
          (s.cfg.sensors.get n).function = .off ∨ s.stc.station ≠ .active ∨ s.lcu.direction = .reverse) →
        exec (.sensorEdge n level order) s = .next base.driven) ∧
      (∀ held, s.scu.filtered.get n = some held → edgeNamed (s.cfg.sensors.get n).edge held level = true →
        (s.cfg.sensors.get n).function = .sight → s.stc.station = .active → s.lcu.direction = .forward →
        s.scu.windows.get n = [] →
        exec (.sensorEdge n level order) s = .next (base.withScu { base.scu with
          captures := s.scu.captures.set n (some (s.lcu.coord, s.stc.now)) }).driven))

/-- An edge taken on a SOURCE sensor is captured and states an own mark at the capture less the offset: the number is
used, the mark is offered to the queue with the number, FRESH flag, kind and lanes it carries and extent 0, and then
the MARK frame is queued where a normal place is free, and noticed as not sent where none is. -/
def Obligations.SourceEdgeStatesAMark : Prop :=
  ∀ (n : Fin 4) (level held : Level) (order : List MoveBlock) (s : State) (kind : Fin 8) (lanes : Lanes),
    s.live = true → s.stc.station = .active → s.lcu.direction = .forward → s.scu.filtered.get n = some held →
    edgeNamed (s.cfg.sensors.get n).edge held level = true →
    (s.cfg.sensors.get n).function = .source kind lanes →
    (
      let q := s.lcu.coord - BitVec.ofInt 32 (s.cfg.sensors.get n).offset
      let base := ((s.withPins { s.pins with sensors := s.pins.sensors.set n level }).withScu { s.scu with
          filtered := s.scu.filtered.set n (some level)
          captures := s.scu.captures.set n (some (s.lcu.coord, s.stc.now)) }).withMke { s.mke with
            nextNumber := s.mke.nextNumber + 1
            lastPosted := some (match s.mke.lastPosted with
              | none => q
              | some p => if before p q then q else p) }
      let v := (base.offerMark
        ⟨s.cfg.station, some s.mke.nextNumber, kind, q, lanes, 0, false, s.mke.freshPending, false⟩).1
      WebFrame base v ∧
        exec (.sensorEdge n level order) s = .next
          (if v.lbi.normalFree
            then v.withLbi (v.lbi.queueNormal
              (.mark ⟨s.mke.nextNumber, s.lcu.epoch, kind, s.mke.freshPending, q, lanes, 0⟩))
            else v.notice .markNotSent (some s.cfg.station) (some s.mke.nextNumber)).driven)

/-- An edge taken on a CUT sensor is captured; before or at the start of the current set it is ignored with CUT
IGNORED, and after the start it closes the current set there as an own cut, with what follows a close (O27): an OPEN
set with a new set following, a CLOSING set with its cut moved to the capture and its NEXT set following. -/
def Obligations.CutEdgeClosesOrIsIgnored : Prop :=
  ∀ (n : Fin 4) (level held : Level) (order : List MoveBlock) (s : State) (cur : RollSet),
    s.live = true → s.stc.station = .active → s.lcu.direction = .forward → s.scu.filtered.get n = some held →
    edgeNamed (s.cfg.sensors.get n).edge held level = true → (s.cfg.sensors.get n).function = .cut →
    s.rmu.current = some cur →
    (
      let base := (s.withPins { s.pins with sensors := s.pins.sensors.set n level }).withScu { s.scu with
        filtered := s.scu.filtered.set n (some level)
        captures := s.scu.captures.set n (some (s.lcu.coord, s.stc.now)) }
      (before cur.start s.lcu.coord = false → exec (.sensorEdge n level order) s = .next
        (base.notice .cutIgnored (some s.cfg.station) none
          (some ((1#32 <<< 30) ||| (s.lcu.coord &&& 0x3FFFFFFF#32)))).driven) ∧
      (before cur.start s.lcu.coord = true → ∃ (u : State) (fol : RollSet),
        exec (.sensorEdge n level order) s = .next u.driven ∧
        u.scu = base.scu ∧
        u.rmu.current = some fol ∧ fol.start = s.lcu.coord ∧ u.rmu.next = none ∧ u.lcu = s.lcu ∧
        (∃ c ∈ u.rmu.closed, c.set.number = cur.number ∧ c.set.start = cur.start ∧
          c.set.cut = some s.lcu.coord ∧ c.endLength = (s.lcu.coord - cur.start).toNat ∧
          c.epoch = s.lcu.epoch) ∧
        ((cur.cut = none ∨ s.rmu.next = none) →
          u = (base.withRmu { s.rmu with
            nextSet := if s.rmu.nextSet < 65535 then s.rmu.nextSet + 1 else 1 }).closeSet cur
              ⟨s.rmu.nextSet, s.lcu.coord, none, none, false, false, false, 0, []⟩ s.lcu.coord true) ∧
        (∀ nxt, cur.cut ≠ none → s.rmu.next = some nxt →
          (
            let moved := base.moveCut { cur with followed := none } nxt s.lcu.coord
            u = moved.1.closeSet moved.2.1 moved.2.2 s.lcu.coord true))))

/-- An edge taken on a SIGHT sensor serves the window that closes earliest, the first in the list among equals: the
window closes as captured. Within the trim limit the miss count becomes 0, a SIGHT claim is released, SIGHTED carries
the capture error, and the coordinate moves by the error times the gain, rounded toward zero, against the error; a
movement that is forward is taken by each block once, in the order given. Beyond the limit TRIM LIMIT carries the
error, and coordinate, miss count and claims stand. That the order is an operand is the model's choice (log 7), so is
that the spill entry of the retirement stands before SIGHTED or TRIM LIMIT (log 30), and so is the count of a RUNOK
that rises and falls within the event (log 6). -/
def Obligations.SightingTrimsTheCoordinate : Prop :=
  ∀ (n : Fin 4) (level held : Level) (order : List MoveBlock) (s : State) (xs ys : List Window) (w : Window),
    s.live = true → s.stc.station = .active → s.lcu.direction = .forward → s.scu.filtered.get n = some held →
    edgeNamed (s.cfg.sensors.get n).edge held level = true → (s.cfg.sensors.get n).function = .sight →
    s.scu.windows.get n = xs ++ w :: ys → (∀ v ∈ xs, before w.close v.close = true) →
    (∀ v ∈ ys, before v.close w.close = false) →
    ∃ u : State, exec (.sensorEdge n level order) s = .next u.driven ∧
      u.scu.filtered = s.scu.filtered.set n (some level) ∧
      u.scu.captures = s.scu.captures.set n (some (s.lcu.coord, s.stc.now)) ∧
      SameNumbering s.mke u.mke ∧ SameStation s.stc u.stc ∧ u.lpt.slot = s.lpt.slot ∧
      (
        let e := (s.lcu.coord - w.centre).toInt
        let gain : Int := match s.cfg.trimGain with
          | .full => 1
          | .half => 2
          | .quarter => 4
        let coord := s.lcu.coord - BitVec.ofInt 32 (Int.tdiv e gain)
        let value := fun (x : Int) => some ((BitVec.ofNat 32 n.val <<< 30) ||| (BitVec.ofInt 32 x &&& 0x3FFFFFFF#32))
        let closed := (((s.withPins { s.pins with sensors := s.pins.sensors.set n level }).withScu { s.scu with
          filtered := s.scu.filtered.set n (some level)
          captures := s.scu.captures.set n (some (s.lcu.coord, s.stc.now))
          windows := s.scu.windows.set n
            ((xs ++ w :: ys).filter (fun v => !(v.owner == w.owner && v.action == w.action))) }).windowClosed
              w true).settleSpill
        (e.natAbs ≤ s.cfg.trimLimit →
          u.lcu = { s.lcu with coord := coord } ∧ (0 ≤ e → u.scu.misses = 0) ∧
          (
            let hit := closed.withScu { closed.scu with misses := 0 }
            ∃ v moved : State,
              v = (if closed.holdsFor 3 .sight = true then (hit.withHtu v.htu).withLbi v.lbi else hit) ∧
              (closed.holdsFor 3 .sight = true →
                (∀ r, r ∈ v.htu.table ↔ r ∈ closed.htu.table ∧ ¬ (r.origin = s.cfg.station ∧ r.claim = 3)) ∧
                v.htu = { closed.htu with table := v.htu.table, tail := v.htu.tail } ∧
                v.htu.tail = (if ∃ r ∈ v.htu.table, r.origin = s.cfg.station then closed.htu.tail else 3) ∧
                v.lbi = { closed.lbi with urgent := v.lbi.urgent } ∧
                (s.lbi.accepts = true → .release 3 ∈ v.lbi.urgent)) ∧
              (
                let trimmed := (v.noticeMark .sighted w.mark (value e)).withLcu { s.lcu with coord := coord }
                (before s.lcu.coord coord = false → moved = trimmed) ∧
                (before s.lcu.coord coord = true → wellFormedOrder order = true →
                  moved = order.foldl (fun t block => match block with
                    | .mke => t.mkeMove s.lcu.coord coord
                    | .scu => t.scuMove s.lcu.coord coord
                    | .aou => t.aouMove s.lcu.coord coord
                    | .rmu => t.rmuMove s.lcu.coord coord) trimmed) ∧
                u = if s.htu.table ≠ [] ∧ v.htu.table = [] ∧ moved.htu.table ≠ []
                  then moved.withHtu { moved.htu with flashes := moved.htu.flashes + 1 } else moved))) ∧
        (s.cfg.trimLimit < e.natAbs → u.lcu = s.lcu ∧ u.scu.misses = s.scu.misses ∧
          u.scu.windows.get n =
            (xs ++ w :: ys).filter (fun v => !(v.owner == w.owner && v.action == w.action)) ∧
          u = closed.noticeMark .trimLimit w.mark (value (max (-536870912) (min 536870911 e)))))

/-! ### Output channels -/

/-- A pulse request at an IDLE channel starts a pulse with its end at the base position and width, or in time; on a WU
channel whose end is already reached it is skipped with OUTPUT SKIPPED. At a PULSING channel it merges: the end becomes
the later of the two, the merge count rises, and OUTPUT MERGED carries the count. At a LATCHED channel it is absorbed
with the same notice, and on an MS channel its end is reported at once. SET, CLEAR and TOGGLE go by the state they find
the channel in; the end of a running pulse is cancelled, and reported on an MS channel. A forward movement ends exactly
the pulses of WU channels whose ends it reaches, and does nothing else at the Action Output Unit. The merge count is 0
in IDLE after a change to it, and else kept. The pin makes one edge, which the model counts (log 6), where the channel
passes between IDLE and another state, and none otherwise: a movement that ends a pulse and a pulse that comes after it
make two. -/
def Obligations.ChannelRequests : Prop :=
  (∀ (s : State) (ch : Fin 4) (base : Coord) (width m : Nat) (mark : Option MarkRef),
    s.aou.channels.get ch = ⟨.idle, m⟩ →
    (
      let stop := match (s.cfg.outputs.get ch).unit with
        | .wu => base + BitVec.ofNat 32 width
        | .ms => s.stc.now + BitVec.ofNat 32 width
      s.pulseRequest ch base width mark =
        if (s.cfg.outputs.get ch).unit = .wu ∧ (s.lcu.coord = stop ∨ before stop s.lcu.coord = true) then
          s.noticeMark .outputSkipped mark
            (some ((BitVec.ofNat 32 ch.val <<< 30) ||| (stop &&& 0x3FFFFFFF#32)))
        else s.withAou
          ⟨s.aou.channels.set ch ⟨.pulsing stop, 0⟩, s.aou.edges.set ch (s.aou.edges.get ch + 1)⟩)) ∧
  (∀ (s : State) (ch : Fin 4) (base : Coord) (width m : Nat) (mark : Option MarkRef),
    (
      let stop := match (s.cfg.outputs.get ch).unit with
        | .wu => base + BitVec.ofNat 32 width
        | .ms => s.stc.now + BitVec.ofNat 32 width
      let merged := if m < 255 then m + 1 else m
      let value := some ((BitVec.ofNat 32 ch.val <<< 30) ||| (BitVec.ofNat 32 merged &&& 0x3FFFFFFF#32))
      (∀ stop', s.aou.channels.get ch = ⟨.pulsing stop', m⟩ →
        s.pulseRequest ch base width mark =
          (s.withAou ⟨s.aou.channels.set ch
            ⟨.pulsing (if before stop' stop then stop else stop'), merged⟩, s.aou.edges⟩).noticeMark
              .outputMerged mark value) ∧
      (s.aou.channels.get ch = ⟨.latched, m⟩ →
        (
          let absorbed := (s.withAou ⟨s.aou.channels.set ch ⟨.latched, merged⟩, s.aou.edges⟩).noticeMark
            .outputMerged mark value
          s.pulseRequest ch base width mark =
            match (s.cfg.outputs.get ch).unit with
            | .wu => absorbed
            | .ms => absorbed.pulseEnded ch)))) ∧
  (∀ (s : State) (ch : Fin 4) (c : Channel), s.aou.channels.get ch = c →
    (
      let stay := s.aou.edges
      let edge := s.aou.edges.set ch (s.aou.edges.get ch + 1)
      let put := fun (st : ChannelState) (m : Nat) (edges : Four Nat) =>
        s.withAou ⟨s.aou.channels.set ch ⟨st, m⟩, edges⟩
      let ended := fun (t : State) => match (s.cfg.outputs.get ch).unit with
        | .wu => t
        | .ms => t.pulseEnded ch
      s.setLevel ch = (match c.state with
        | .idle => put .latched c.merges edge
        | .pulsing _ => ended (put .latched c.merges stay)
        | .latched => s) ∧
      s.clearLevel ch = (match c.state with
        | .idle => s
        | .pulsing _ => ended (put .idle 0 edge)
        | .latched => put .idle 0 edge) ∧
      s.toggleLevel ch = (match c.state with
        | .idle => put .latched c.merges edge
        | .pulsing _ => ended (put .idle 0 edge)
        | .latched => put .idle 0 edge))) ∧
  (∀ (s : State) (a b : Coord), s.aouMove a b = s.withAou (s.aouMove a b).aou ∧
    ∀ ch : Fin 4,
      (
        let ends := (s.cfg.outputs.get ch).unit = .wu ∧
          ∃ stop, (s.aou.channels.get ch).state = .pulsing stop ∧ reaches a b stop = true
        (ends → (s.aouMove a b).aou.channels.get ch = ⟨.idle, 0⟩ ∧
          (s.aouMove a b).aou.edges.get ch = s.aou.edges.get ch + 1) ∧
        (¬ ends → (s.aouMove a b).aou.channels.get ch = s.aou.channels.get ch ∧
          (s.aouMove a b).aou.edges.get ch = s.aou.edges.get ch))) ∧
  (∀ (s : State) (a b base : Coord) (ch : Fin 4) (width m : Nat) (mark : Option MarkRef) (stop : BitVec 32),
    (s.cfg.outputs.get ch).unit = .wu → s.aou.channels.get ch = ⟨.pulsing stop, m⟩ → reaches a b stop = true →
    reached s.lcu.coord (base + BitVec.ofNat 32 width) = false →
    (
      let after := (s.aouMove a b).pulseRequest ch base width mark
      let first := (s.pulseRequest ch base width mark).aouMove a b
      let merged := if before stop (base + BitVec.ofNat 32 width) then base + BitVec.ofNat 32 width else stop
      after.aou.channels.get ch = ⟨.pulsing (base + BitVec.ofNat 32 width), 0⟩ ∧
      after.aou.edges.get ch = s.aou.edges.get ch + 2 ∧
      first.aou.edges.get ch = s.aou.edges.get ch + (if reaches a b merged then 1 else 0)))

/-- An MS channel whose end the time has reached becomes IDLE. Every ARMED PULSE action on it becomes DONE, a record
left with no PENDING or ARMED action retires, and the spill record is offered for those retirements (right after the
report: log 21); nothing else changes. The pin makes one edge, which the model counts (log 6). -/
def Obligations.MsPulseEndsInTime : Prop :=
  ∀ (ch : Fin 4) (s : State) (stop : BitVec 32) (m : Nat), s.live = true → s.configured = true →
    (s.cfg.outputs.get ch).unit = .ms → s.aou.channels.get ch = ⟨.pulsing stop, m⟩ →
    (s.stc.now = stop ∨ before stop s.stc.now = true) →
    ∃ u : State, exec (.msPulseEnd ch) s = .next u.driven ∧
      u.aou.channels.get ch = ⟨.idle, 0⟩ ∧ u.aou.edges.get ch = s.aou.edges.get ch + 1 ∧
      (∀ ch', ch' ≠ ch → u.aou.channels.get ch' = s.aou.channels.get ch' ∧
        u.aou.edges.get ch' = s.aou.edges.get ch') ∧
      (∀ r ∈ u.mke.queue, ∀ a ∈ r.actions, a.armedOn ch = false) ∧
      u.scu = s.scu ∧ WebFrame s u ∧
      (
        let armed := fun (a : Action) => a.type == .pulse && a.state == .armed && a.param == some ch
        let ended := fun (r : MarkRecord) =>
          { r with actions := r.actions.map (fun a => if armed a then { a with state := .done } else a) }
        let retires := fun (r : MarkRecord) =>
          r.actions.any armed && (ended r).actions.all (fun a => a.state == .done || a.state == .missed)
        let base := (s.withAou ⟨s.aou.channels.set ch ⟨.idle, 0⟩,
          s.aou.edges.set ch (s.aou.edges.get ch + 1)⟩).withMke { s.mke with
          queue := (s.mke.queue.filter (fun r => !retires r)).map ended
          retired := s.mke.retired + (s.mke.queue.filter retires).length }
        s.mke.queue.Pairwise (fun a b => a.uid ≠ b.uid) → u = base.settleSpill)

/-! ### Movements at the blocks -/

/-- A forward movement fires exactly the PENDING actions whose trigger positions it reaches: nearest first, among
equals by the queue index of their records, and within one record by their place in its list. The queue order is that
at its start. Then the spill record is offered for the retirements (after all firing: log 21). -/
def Obligations.MovementFiresInOrder : Prop :=
  ∀ (s : State) (a b : Coord),
    (
      let action := fun (x : Nat × Nat) => (s.mke.queue[x.1]?).bind (fun r => r.actions[x.2]?)
      let distance := fun (x : Nat × Nat) => ((action x).map (fun c => (c.triggerPos - a).toNat)).getD 0
      let name := fun (x : Nat × Nat) => ((s.mke.queue[x.1]?).map MarkRecord.uid).getD 0
      ∃ fired : List (Nat × Nat),
        (∀ x, x ∈ fired ↔ ∃ c, action x = some c ∧ c.state = .pending ∧ before a b = true ∧
          1 ≤ (c.triggerPos - a).toNat ∧ (c.triggerPos - a).toNat ≤ (b - a).toNat) ∧
        fired.Pairwise (fun x y => distance x < distance y ∨
          (distance x = distance y ∧ (x.1 < y.1 ∨ (x.1 = y.1 ∧ x.2 < y.2)))) ∧
        s.mkeMove a b = (fired.foldl (fun t x => t.fireAction (name x) x.2) s).settleSpill)

/-- A PENDING action that fires is handed to its block, takes its state, and has its record examined; any other stays
as it is. A PULSE on an MS channel and a SIGHT become ARMED, a HOLD that finds no free claim number MISSED with HOLD
SLOTS FULL, and every other DONE. An entry handed to the Roll Map Unit goes to the NEXT set from the cut of a CLOSING
set on, else to the current set, clamped with LATE before the start, and is dropped at a full set, the first drop
noticed (what counts as the first: log 33). -/
def Obligations.FiredActionIsHandedOver : Prop :=
  (∀ s : State, MkeOk s.mke → ∀ r ∈ s.mke.queue, ∀ (i : Nat) (a : Action), r.actions[i]? = some a →
    (a.state ≠ .pending → s.fireAction r.uid i = s) ∧
    (a.state = .pending →
      (
        let mark := r.number.map (fun n => (r.origin, n))
        let put := fun (t : State) (x : ActionState) => t.setAction r.uid i x
        let fires := fun (t : State) => s.fireAction r.uid i = t.examineRecord r.uid
        (∀ ch, a.type = .pulse → a.param = some ch → fires (match (s.cfg.outputs.get ch).unit with
          | .wu => put (s.pulseRequest ch a.actionPos a.width mark) .done
          | .ms => (put s .armed).pulseRequest ch a.actionPos a.width mark)) ∧
        (∀ ch, a.param = some ch →
          (a.type = .set → fires (put (s.setLevel ch) .done)) ∧
          (a.type = .clear → fires (put (s.clearLevel ch) .done)) ∧
          (a.type = .toggle → fires (put (s.toggleLevel ch) .done))) ∧
        (a.type = .hold →
          (∀ n, n < 3 → s.holdsClaim n = false → (∀ m, m < n → s.holdsClaim m = true) →
            fires (put (s.makeClaim n .mark mark) .done) ∧ (s.makeClaim n .mark mark).holdsFor n .mark = true ∧
            (s.lbi.accepts = true → .hold n .mark mark ∈ (s.makeClaim n .mark mark).lbi.urgent)) ∧
          ((∀ n, n < 3 → s.holdsClaim n = true) → fires (put (s.noticeMark .holdSlotsFull mark) .missed))) ∧
        (∀ n, a.type = .sight → a.param = some n →
          (
            let centre := a.actionPos + BitVec.ofInt 32 (s.cfg.sensors.get n).offset
            let half := min a.width 65535
            fires ((put s .armed).openWindow n ⟨centre, half, centre + BitVec.ofNat 32 half, r.uid, i, mark⟩))) ∧
        (a.type = .record → fires (put (if s.cfg.rollMap = true
          then s.recordEntry ⟨mark, r.kind, r.lanes, r.position, r.extent, false⟩ else s) .done)) ∧
        (a.type = .note → fires (put (s.noticeMark .markArrived mark (some a.actionPos)) .done))))) ∧
  (∀ (s : State) (h : RecordHandoff) (cur : RollSet), s.rmu.current = some cur →
    (
      let entered := fun (r : RollSet) (hold : RollSet → Rmu) =>
        if r.entries.length < 256 then
          s.withRmu (hold { r with entries := insertEntry ⟨h.mark, h.kind, h.lanes, (h.position - r.start).toInt.toNat,
            h.extent, h.late || decide ((h.position - r.start).toInt < 0), false, false, h.kind == 7⟩ r.entries })
        else
          (if r.dropped = 0 then s.noticeMark .setOverflow h.mark (some (BitVec.ofNat 32 r.number)) else s).withRmu
            (hold { r with overflow := true, dropped := holdInc 65535 r.dropped })
      s.recordEntry h = match cur.cut, s.rmu.next with
        | some k, some nxt =>
          if h.position = k ∨ before k h.position = true then entered nxt (fun x => { s.rmu with next := some x })
          else entered cur (fun x => { s.rmu with current := some x })
        | _, _ => entered cur (fun x => { s.rmu with current := some x })))

/-- A window handed over opens at the end of its sensor's list, or closes at once where its close is reached. A forward
movement closes exactly the windows whose closes it reaches: nearest first, among equals by their place in their lists,
then by sensor (log 24). Each such close makes the owning action MISSED where it is still ARMED, raises the miss count,
places SIGHT MISSED, and asks for claim 3 where the count has risen to the limit. That the spill record is offered
before SIGHT MISSED is the model's choice (log 30). -/
def Obligations.MovementClosesWindows : Prop :=
  (∀ (s : State) (n : Fin 4) (w : Window),
    s.openWindow n w = (if reached s.lcu.coord w.close then (s.windowClosed w false).countMiss n w
      else s.withScu { s.scu with windows := s.scu.windows.set n (s.scu.windows.get n ++ [w]) }) ∧
    (
      let misses := if s.scu.misses < 255 then s.scu.misses + 1 else s.scu.misses
      let noticed := (s.withScu { s.scu with misses := misses }).noticeMark .sightMissed w.mark
        (some ((BitVec.ofNat 32 n.val <<< 30) ||| (BitVec.ofNat 32 misses &&& 0x3FFFFFFF#32)))
      s.countMiss n w =
        if misses = s.cfg.missLimit ∧ s.scu.misses < misses ∧ s.holdsClaim 3 = false then
          noticed.makeClaim 3 .sight none
        else noticed)) ∧
  (∀ (s : State) (w : Window) (captured : Bool),
    (
      let armed := ∃ r ∈ s.mke.queue, r.uid = w.owner ∧
        ∃ a, r.actions[w.action]? = some a ∧ a.type = .sight ∧ a.state = .armed
      (armed → s.windowClosed w captured =
        (s.setAction w.owner w.action (if captured then .done else .missed)).examineRecord w.owner) ∧
      (¬ armed → s.windowClosed w captured = s))) ∧
  (∀ (s : State) (a b : Coord),
    (
      let window := fun (x : Fin 4 × Nat) => (s.scu.windows.get x.1)[x.2]?
      let distance := fun (x : Fin 4 × Nat) => ((window x).map (fun w => (w.close - a).toNat)).getD 0
      ∃ closed : List (Fin 4 × Nat),
        (∀ x, x ∈ closed ↔ ∃ w, window x = some w ∧ before a b = true ∧
          1 ≤ (w.close - a).toNat ∧ (w.close - a).toNat ≤ (b - a).toNat) ∧
        closed.Pairwise (fun x y => distance x < distance y ∨
          (distance x = distance y ∧ (x.2 < y.2 ∨ (x.2 = y.2 ∧ x.1 < y.1)))) ∧
        s.scuMove a b = closed.foldl (fun t x => match window x with
          | none => t
          | some w =>
            (((t.withScu { t.scu with windows := t.scu.windows.set x.1 ((t.scu.windows.get x.1).filter
              (fun v => !(v.owner == w.owner && v.action == w.action))) }).windowClosed w false).settleSpill).countMiss
                x.1 w) s))

/-- The close of the current set at a cut, with the set that follows. An entry that ends before the cut stays, one
across it is split, and one beyond is carried into the following set, which becomes current. The closed set is
appended, the oldest of four lost; the cut pulse is asked for; an own close of an ACTIVE station queues its CUTOVER
frame, or is NOT SENT where no normal place is free; and SET CLOSED is placed. Where the cut of a CLOSING set moves,
the entries of both sets go by their coordinates. What finds a set full is dropped, the first drop noticed (log 33). A
movement that reaches the cut of a CLOSING set closes it there with its NEXT set; any other changes nothing at the Roll
Map Unit. That the notices of the cut pulse stand before those of the close is the model's choice (log 30), and so is
that entries which move leave both sets before either receives any (log 16), and that the announcement and the loss of
a set go by its number, whichever sets carry it (log 34); an entry of extent 0 at the cut is carried by deduction (log
29). -/
def Obligations.MovementCompletesACut : Prop :=
  (∀ (e : RollEntry) (xs : List RollEntry),
    insertEntry e xs = xs.takeWhile (fun x => x.position ≤ e.position) ++
      e :: xs.dropWhile (fun x => x.position ≤ e.position) ∧
    insertBefore e xs = xs.takeWhile (fun x => x.position < e.position) ++
      e :: xs.dropWhile (fun x => x.position < e.position)) ∧
  (
    let lost := fun (r : RollSet) (ys : List RollEntry) => ys.drop (256 - r.entries.length)
    let told := fun (t : State) (r : RollSet) (ys : List RollEntry) => match lost r ys with
      | y :: _ => if r.dropped = 0 then t.noticeMark .setOverflow y.mark (some (BitVec.ofNat 32 r.number)) else t
      | [] => t
    let filled := fun (r : RollSet) (ys : List RollEntry) (put : List RollEntry → List RollEntry → List RollEntry) =>
      { r with
        entries := put (ys.take (256 - r.entries.length)) r.entries
        overflow := r.overflow || !(lost r ys).isEmpty
        dropped := min 65535 (r.dropped + (lost r ys).length) }
    (∀ (s : State) (cur fol : RollSet) (k : Coord) (own : Bool), s.rmu.closed.length ≤ 4 → fol.dropped ≤ 65535 →
      (
        let len := if before cur.start k then (k - cur.start).toNat else 1
        let kept := cur.entries.filterMap (fun e =>
          if len ≤ e.position then none
          else if e.position + e.extent ≤ len then some e
          else some { e with extent := len - e.position, splitTail := true })
        let carried := cur.entries.filterMap (fun e =>
          if len ≤ e.position then some { e with position := e.position - len }
          else if e.position + e.extent ≤ len then none
          else some { e with
            position := 0, extent := e.position + e.extent - len, splitHead := true, splitTail := false })
        let c : ClosedSet := ⟨{ cur with cut := some k, entries := kept }, len, s.lcu.epoch, .none, false⟩
        let base := told s fol carried
        let wound : Rmu := { s.rmu with
          current := some (filled fol carried (fun ys es => ys.foldr insertBefore es)), next := none }
        let appended := match s.rmu.closed, decide (s.rmu.closed.length = 4) with
          | oldest :: rest, true =>
            ((base.withStc { s.stc with
              counters := { s.stc.counters with setsLost := holdInc 65535 s.stc.counters.setsLost }
              fault := some ⟨.setLost, s.stc.now, s.cfg.station⟩ }).notice .setLost none none
                (some ((BitVec.ofNat 32 oldest.set.number <<< 16) ||| (if oldest.read then 1#32 else 0#32)))).withRmu
                  { wound with
                    closed := rest ++ [c]
                    pendingRead := s.rmu.pendingRead.filter (fun p => p.1 != oldest.set.number) }
          | _, _ => base.withRmu { wound with closed := s.rmu.closed ++ [c] }
        let pulsed := match s.cfg.cutChannel with
          | none => appended
          | some ch => (appended.pulseRequest ch k s.cfg.cutWidth none).settleSpill
        let announce := fun (t : State) (x : Announcement) => t.withRmu { t.rmu with
          closed := t.rmu.closed.map (fun y => if y.set.number = cur.number then { y with announcement := x } else y) }
        let announced :=
          if own = true ∧ s.stc.station = .active then
            if pulsed.lbi.normalFree then
              announce (pulsed.withLbi (pulsed.lbi.queueNormal (.cutover k cur.number))) .queued
            else (announce pulsed .notSent).notice .cutNotSent none none (some (BitVec.ofNat 32 cur.number))
          else pulsed
        s.closeSet cur fol k own = announced.notice .setClosed
          (some (match cur.followed with
            | some (o, _) => o
            | none => s.cfg.station)) none
          (some ((BitVec.ofNat 32 cur.number <<< 16) ||| (BitVec.ofNat 32 (min 65535 (len / 10000)) &&& 0xFFFF#32))))) ∧
    (∀ (s : State) (cur nxt : RollSet) (k : Coord), cur.dropped ≤ 65535 → nxt.dropped ≤ 65535 →
      (
        let stands := fun (r : RollSet) (x : RollEntry) => r.start + BitVec.ofNat 32 x.position
        let after := fun (x : Coord) => x == k || before k x
        let moved := fun (r : RollSet) (start : Coord) (x : RollEntry) =>
          { x with position := (stands r x - start).toInt.toNat }
        let arrive := fun (ys es : List RollEntry) => ys.foldl (fun zs y => insertEntry y zs) es
        let cur' := { cur with cut := some k, entries := cur.entries.filter (fun x => !after (stands cur x)) }
        let nxt' := { nxt with
          start := k
          entries := (nxt.entries.filter (fun x => !before (stands nxt x) k)).map (moved nxt k) }
        let toCur := (nxt.entries.filter (fun x => before (stands nxt x) k)).map (moved nxt cur.start)
        let toNxt := (cur.entries.filter (fun x => after (stands cur x))).map (moved cur k)
        s.moveCut cur nxt k =
          (told (told s cur' toCur) nxt' toNxt, filled cur' toCur arrive, filled nxt' toNxt arrive)))) ∧
  (∀ (s : State) (a b : Coord),
    ((∀ cur nxt k, s.rmu.current = some cur → s.rmu.next = some nxt → cur.cut = some k → reaches a b k = false) →
      s.rmuMove a b = s) ∧
    (∀ cur nxt k, s.rmu.current = some cur → s.rmu.next = some nxt → cur.cut = some k → reaches a b k = true →
      s.rmuMove a b = s.closeSet cur nxt k (decide (cur.followed = none))))

/-! ### The mark queue -/

/-- A MARK frame of the current or the previous epoch with good content, taken in ACTIVE: the origin table takes its
number and position by its sequence, and then the mark is offered to the queue, REBASED where it is of the previous
epoch. A gap is first covered by at most four BLIND marks, what they leave of it is folded, and it is noticed and
counted. A repeated or old number is discarded with MARK DUPLICATE. That what four BLIND marks leave is folded whatever
the action table, and that BLIND marks are neither FRESH nor REBASED, is deduced (logs 14 and 15). -/
def Obligations.CurrentMarkMovesTheOriginTable : Prop :=
  ∀ (o : NoticeOrder) (s : State) (e : InEntry) (δ : BitVec 32), FrameNext s .mark e → s.stc.station = .active →
    (
      let m := parseMark e.frame.payload
      let d := (m.epoch - s.lcu.epoch).toNat
      let p := if d = 0 then m.position else m.position + δ
      let origin := e.frame.origin
      let offered : MarkOffer :=
        ⟨origin, some m.number, m.kind, p, m.lanes, m.extent, decide (d = 255), m.fresh, false⟩
      let entered := fun (t : State) (position : Coord) => ((t.withMke { t.mke with
        origins := modifyAt (fun _ => .tracking m.number position) (origin - 1) t.mke.origins }).offerMark offered).1
      let taken := fun (u : State) (position : Coord) (gaps : Nat) =>
        exec (.markFrame o) s = .next u.driven ∧
        WebFrame (s.dequeued.withMke { s.mke with
          origins := modifyAt (fun _ => .tracking m.number position) (origin - 1) s.mke.origins }) u ∧
        u.stc.counters.gaps = gaps
      1 ≤ origin → origin ≤ 24 → m.kind ≠ 7 → m.lanes ≠ 0 → (d = 0 ∨ (d = 255 ∧ s.lcu.deltaPrev = some δ)) →
      ((s.mke.entryOf origin = .unknown ∨ m.fresh = true) →
        taken (entered s.dequeued p) p s.stc.counters.gaps) ∧
      (∀ last held, s.mke.entryOf origin = .tracking last held → m.fresh = false →
        (
          let number := (m.number - last).toNat
          let position := if before held p then p else held
          (number = 1 → taken (entered s.dequeued position) position s.stc.counters.gaps) ∧
          (2 ≤ number → number ≤ 32767 → s.mke.retired = 0 →
            (
              let start := if before p held then p else held
              let span := (position - start).toNat
              let blind := fun (t : State) (i : Nat) => (t.offerMark ⟨0, none, 7, start + BitVec.ofNat 32 (65535 * i),
                allLanes s.cfg.laneCount, min 65535 (span - 65535 * i), false, false, false⟩).1
              let covered := ([0, 1, 2, 3].filter (fun i => i = 0 || 65535 * i < span)).foldl blind s.dequeued
              let folded := if 262140 < span then covered.foldSpill none (start + 262140#32) (span - 262140)
                else covered
              let noticed := folded.notice .gap (some origin) (some m.number)
                (some ((BitVec.ofNat 32 (number - 1) <<< 16) ||| (BitVec.ofNat 32 (min span 65535) &&& 0xFFFF#32)))
              let gaps := holdInc 65535 s.stc.counters.gaps
              taken (entered (noticed.withStc { noticed.stc with
                counters := { noticed.stc.counters with gaps := gaps } }) position) position gaps)) ∧
          ((number = 0 ∨ 32768 ≤ number) → exec (.markFrame o) s = .next
            (s.dequeued.notice .markDuplicate (some origin) (some m.number)).driven))))

/-- The record of a mark takes what is offered, with one PENDING action for each entry of the action table of its kind,
in table order: at the mark position and the entry's offset, of the entry's width, the mark's extent added where the
entry is by extent; it triggers there, but a SIGHT at that point and its sensor's offset less the half-window, which is
its width up to 65,535. A record enters directly after the last record whose position is not after its own, else at the
head. A mark offered with every trigger position of its actions ahead, where the queue has room and holds no mark of
its identity, stands in the queue as its record. That records have names is the model's own (log 10). -/
def Obligations.TakenMarkEntersTheQueue : Prop :=
  (∀ (s : State) (o : MarkOffer), s.makeRecord o =
    ⟨s.mke.nextUid, o.origin, o.number, o.kind, o.position, o.lanes, o.extent, false, o.rebased, o.fresh, o.spill,
      (tableEntries s.cfg o.kind).map (fun t =>
        (
          let stands := o.position + BitVec.ofInt 32 t.offset
          let width := if t.byExtent then o.extent + t.width else t.width
          let sensor : Int := match t.param with
            | some n => (s.cfg.sensors.get n).offset
            | none => 0
          ⟨t.type, t.param, stands,
            if t.type = .sight then stands + BitVec.ofInt 32 sensor - BitVec.ofNat 32 (min width 65535) else stands,
            width, .pending⟩))⟩) ∧
  (∀ (r : MarkRecord) (q : List MarkRecord), ∃ xs ys, q = xs ++ ys ∧ insertRecord r q = xs ++ r :: ys ∧
    (∀ y ∈ ys, before r.position y.position = true) ∧
    (xs = [] ∨ ∃ zs x, xs = zs ++ [x] ∧ before r.position x.position = false)) ∧
  (∀ (s : State) (o : MarkOffer), s.mke.queue.length < 64 → s.sameIdentity o = none →
    tableEntries s.cfg o.kind ≠ [] → (∀ a ∈ (s.makeRecord o).actions, reached s.lcu.coord a.triggerPos = false) →
    (s.offerMark o).1 = ((s.withMke { s.mke with
        queue := insertRecord (s.makeRecord o) s.mke.queue, nextUid := s.mke.nextUid + 1 }).settleSpill) ∧
    (s.offerMark o).2 = .queued)

/-- A mark offered otherwise. A kind without actions is not queued. At a full queue the mark is folded into the spill
record and counted, and the first fold is noticed. A repeat of a held mark is discarded with MARK DUPLICATE; a clash
with one with MARK CLASH, and a BLIND mark is offered in its place. A mark with reached trigger positions enters late:
its reached HOLD and RECORD actions fire in list order, its other reached actions are MISSED, it is noticed once, and
it retires at once where every action was reached. That MARK LATE stands after the notices of the late actions is the
model's choice (log 30). -/
def Obligations.LateSpilledAndRepeatedMarks : Prop :=
  ∀ (s : State) (o : MarkOffer), MkeOk s.mke → s.mke.retired = 0 →
    (
      let mark := o.number.map (fun n => (o.origin, n))
      let counted := fun (t : State) => t.withStc { t.stc with counters := { t.stc.counters with
        marksSpilled := holdInc 65535 t.stc.counters.marksSpilled } }
      let stop := o.position + BitVec.ofNat 32 o.extent
      (tableEntries s.cfg o.kind = [] → s.offerMark o = (s, .notQueued)) ∧
      (tableEntries s.cfg o.kind ≠ [] →
        (s.mke.queue.length = 64 →
          (s.mke.spill = none → s.offerMark o = (counted ((s.withMke { s.mke with
            spill := some ⟨o.position, stop, 1⟩ }).noticeMark .queueSpill mark (some 64#32)), .spilled)) ∧
          (∀ low high n, s.mke.spill = some ⟨low, high, n⟩ → s.offerMark o = (counted (s.withMke { s.mke with
            spill := some ⟨if before o.position low then o.position else low, if before high stop then stop else high,
              holdInc 65535 n⟩ }), .spilled))) ∧
        (∀ held ∈ s.mke.queue, ∀ n, s.mke.queue.length < 64 → 1 ≤ o.origin → o.origin ≤ 24 → o.number = some n →
          held.origin = o.origin → held.number = some n →
          ((held.kind = o.kind ∧ held.position = o.position ∧ held.lanes = o.lanes ∧ held.extent = o.extent) →
            s.offerMark o = (s.notice .markDuplicate (some o.origin) (some n), .repeated)) ∧
          (¬ (held.kind = o.kind ∧ held.position = o.position ∧ held.lanes = o.lanes ∧ held.extent = o.extent) →
            s.offerMark o = (((s.notice .markClash (some o.origin) (some n)).offerMark
              ⟨0, none, 7, o.position, allLanes s.cfg.laneCount, o.extent, false, false, false⟩).1, .clash))) ∧
        (s.mke.queue.length < 64 → s.sameIdentity o = none →
          (
            let r := s.makeRecord o
            let past := fun (a : Action) => reached s.lcu.coord a.triggerPos
            let count := (r.actions.filter past).length
            let placed := s.withMke { s.mke with
              queue := insertRecord { r with late := true } s.mke.queue, nextUid := s.mke.nextUid + 1 }
            let acted := (numbered 0 r.actions).foldl (fun t ia =>
              if past ia.2 = true then
                match ia.2.type with
                | .hold => t.fireHold r ia.1
                | .record => t.fireRecord r ia.1 true
                | _ => t.setAction r.uid ia.1 .missed
              else t) placed
            let noticed := acted.noticeMark .markLate mark (some (BitVec.ofNat 32 count))
            1 ≤ count →
            (count < r.actions.length → s.offerMark o = (noticed, .queued)) ∧
            (count = r.actions.length → s.offerMark o = ((noticed.withMke { s.mke with
              nextUid := s.mke.nextUid + 1, retired := 1 }).settleSpill, .queued))))))

/-- A record retires when it is examined with no action PENDING or ARMED: it leaves the queue. For each retirement the
spill record is offered once while it is not empty, as a BLIND mark with SPILL at its low bound, of at most 65,535 wu;
what is longer waits with its low bound moved on. That retirements are counted inside an event, and offered at its end
in SILENT too, is the model's own (logs 10, 21 and 31). -/
def Obligations.RetirementLetsTheSpillIn : Prop :=
  (∀ (s : State) (uid : Nat),
    ((∀ r ∈ s.mke.queue, r.uid = uid → ∃ a ∈ r.actions, a.state = .pending ∨ a.state = .armed) →
      s.examineRecord uid = s) ∧
    ((∃ r ∈ s.mke.queue, r.uid = uid ∧ ∀ a ∈ r.actions, a.state = .done ∨ a.state = .missed) →
      s.examineRecord uid = s.withMke { s.mke with
        queue := s.mke.queue.filter (fun r => r.uid != uid), retired := s.mke.retired + 1 })) ∧
  (∀ s : State,
    (s.mke.retired = 0 → s.settleSpill = s) ∧
    (s.mke.spill = none → s.settleSpill = s.withMke { s.mke with retired := 0 }) ∧
    (∀ low high n k, s.mke.spill = some ⟨low, high, n⟩ → s.mke.retired = k + 1 →
      s.mke.queue.length + s.mke.retired ≤ 64 →
      (
        let span := (high - low).toNat
        let rest : Option Spill := if 65535 < span then some ⟨low + 65535#32, high, n⟩ else none
        s.settleSpill = ((s.withMke { s.mke with spill := rest, retired := k }).offerMark
          ⟨0, none, 7, low, allLanes s.cfg.laneCount, min span 65535, false, false, true⟩).1.settleSpill)))

/-- A stale MARK frame is discarded with MARK STALE; a TRACKING entry takes its number where that is ahead, and keeps
its position. -/
def Obligations.StaleMarkOnlyMovesTheNumber : Prop :=
  ∀ (o : NoticeOrder) (s : State) (e : InEntry), FrameNext s .mark e → s.stc.station = .active →
    (
      let m := parseMark e.frame.payload
      let d := (m.epoch - s.lcu.epoch).toNat
      let origin := e.frame.origin
      let noticed := s.dequeued.notice .markStale (some origin) (some m.number) (some (BitVec.ofNat 32 d))
      1 ≤ origin → origin ≤ 24 → m.kind ≠ 7 → m.lanes ≠ 0 → 128 ≤ d → d ≤ 254 →
      exec (.markFrame o) s = .next
        (match s.mke.entryOf origin with
        | .unknown => noticed
        | .tracking last p =>
          if 1 ≤ (m.number - last).toNat ∧ (m.number - last).toNat ≤ 32767 then
            noticed.withMke { s.mke with
              origins := modifyAt (fun _ => .tracking m.number p) (origin - 1) s.mke.origins }
          else noticed).driven)

/-- A MARK frame ahead of this station's epoch sends an ACTIVE station to DESYNC, and the frame is discarded: EPOCH
AHEAD and QUEUE EMPTIED are placed, in the order given, and EPOCH AHEAD is the last fault. That the order is an operand
is the model's choice (log 8). -/
def Obligations.MarkAheadEntersDesync : Prop :=
  ∀ (o : NoticeOrder) (s : State) (e : InEntry), FrameNext s .mark e → s.stc.station = .active →
    (
      let m := parseMark e.frame.payload
      let d := (m.epoch - s.lcu.epoch).toNat
      let origin := e.frame.origin
      1 ≤ origin → origin ≤ 24 → m.kind ≠ 7 → m.lanes ≠ 0 → 1 ≤ d → d ≤ 127 →
      ∃ u : State, exec (.markFrame o) s = .next u.driven ∧ EntersDesync s u ∧
        u.stc = { s.stc with station := .desync, fault := some ⟨.epochAhead, s.stc.now, origin⟩ } ∧
        (
          let ahead := fun (t : State) =>
            t.notice .epochAhead (some origin) (some m.number) (some (BitVec.ofNat 32 d))
          let emptied := fun (t : State) => t.notice .queueEmptied none none
            (some (BitVec.ofNat 32 (s.mke.queue.length + (s.mke.spill.map Spill.count).getD 0)))
          u.lpt = (match o with
            | .listed => emptied (ahead s)
            | .reversed => ahead (emptied s)).lpt) ∧
        u.htu.lastHeard = s.htu.lastHeard ∧ u.htu.tail = s.htu.tail ∧
        u.lbi.inbound = s.lbi.inbound.tail ∧ u.lpt.slot = s.lpt.slot ∧ u.pins = s.pins)

/-- Outside ACTIVE a MARK frame is taken and discarded. In ACTIVE one whose content fails is discarded with MARK
INVALID, which names the first failing check. A ZERO frame whose origin is no station is discarded with ZERO INVALID;
in SILENT a good one is discarded. -/
def Obligations.MarkAndZeroFramesDiscarded : Prop :=
  ∀ (o : NoticeOrder) (s : State) (e : InEntry),
    (FrameNext s .mark e →
      (s.stc.station ≠ .active → exec (.markFrame o) s = .next s.dequeued.driven) ∧
      (
        let m := parseMark e.frame.payload
        let invalid := fun (v : Nat) => s.dequeued.notice .markInvalid (some e.frame.origin) (some m.number)
          (some (BitVec.ofNat 32 v))
        s.stc.station = .active →
        ((e.frame.origin = 0 ∨ 25 ≤ e.frame.origin) → exec (.markFrame o) s = .next (invalid 1).driven) ∧
        (1 ≤ e.frame.origin → e.frame.origin ≤ 24 →
          (m.kind = 7 → exec (.markFrame o) s = .next (invalid 2).driven) ∧
          (m.kind ≠ 7 → m.lanes = 0 → exec (.markFrame o) s = .next (invalid 3).driven)))) ∧
    (FrameNext s .zero e →
      ((e.frame.origin = 0 ∨ 25 ≤ e.frame.origin) →
        exec .zeroFrame s = .next (s.dequeued.notice .zeroInvalid (some e.frame.origin)).driven) ∧
      (1 ≤ e.frame.origin → e.frame.origin ≤ 24 → s.stc.station = .silent →
        exec .zeroFrame s = .next s.dequeued.driven))

/-! ### Zeroing -/

/-- A ZERO, taken from the inbound buffer or by the loopback, in JOINING, ACTIVE or DESYNC: with t the travel since the
frame end, the coordinate becomes the target plus t, the epoch advances, δ is kept for the previous epoch, the station
is synchronised, and DESYNC is left. -/
def Obligations.ZeroSetsTheCoordinate : Prop :=
  ∀ (s : State), (s.stc.station = .joining ∨ s.stc.station = .active ∨ s.stc.station = .desync) →
    1 ≤ s.cfg.ratioD →
    (
      let applied := fun (u : State) (origin : Nat) (z : Coord) (path : Nat) (captured : BitVec 32) =>
        let counts := (s.lcu.raw - captured).toInt
        ∃ (t : Int) (rem : Nat), counts * s.cfg.ratioN = t * s.cfg.ratioD + rem ∧ rem < s.cfg.ratioD ∧
          (
            let target := z - BitVec.ofInt 32 ((s.cfg.path : Int) - path)
            let coord := target + BitVec.ofInt 32 t
            u.lcu = { s.lcu with
              coord := coord
              remainder := rem
              epoch := s.lcu.epoch + 1
              deltaPrev := some (coord - s.lcu.coord)
              synced := true
              joinSync := if s.stc.station = .joining then .zeroed else s.lcu.joinSync } ∧
            u.stc = { s.stc with
              station := if s.stc.station = .desync then .active else s.stc.station } ∧
            (s.stc.station = .desync → u.holdsFor 3 .desync = false) ∧
            (s.lpt.notices.length < 32 → u.lpt.notices = s.lpt.notices ++
              [⟨.zeroApplied, s.stc.now, some coord, some origin, none, some (coord - s.lcu.coord)⟩]))
      (∀ e, FrameNext s .zero e → 1 ≤ e.frame.origin → e.frame.origin ≤ 24 →
        ∃ u : State, exec .zeroFrame s = .next u.driven ∧
          applied u e.frame.origin (BitVec.ofNat 32 (field e.frame.payload 0 4)) (field e.frame.payload 4 3) e.raw ∧
          u.lbi.inbound = s.lbi.inbound.tail) ∧
      (∀ b, LoopbackNext s .zero b →
        ∃ u : State, exec .zeroLoopback s = .next u.driven ∧
          applied u s.cfg.station (BitVec.ofNat 32 (field b.frame.payload 0 4)) s.cfg.path b.raw ∧
          u.lbi.loopback = none))

/-- Across a ZERO every stored position that R85 lists keeps its distance from the coordinate: marks and their actions,
the spill record, the own last posted position, the last mark positions of the origin table, windows and captures, the
ends of running WU pulses, the starts and the cut of the roll sets being wound, and the cut coordinates of the CUTOVER
frames waiting and in the send slot. Closed sets keep what they hold. -/
def Obligations.ZeroKeepsDistances : Prop :=
  ∀ (s : State) (origin : Nat) (z : Coord) (path : Nat) (captured : BitVec 32),
    (
      let u := s.applyZero origin z path captured
      let far := fun (p : Coord) => p - s.lcu.coord
      let far' := fun (p : Coord) => p - u.lcu.coord
      u.mke.queue.map (fun r => (r.uid, far' r.position,
          r.actions.map (fun a => (far' a.actionPos, far' a.triggerPos))))
        = s.mke.queue.map (fun r => (r.uid, far r.position,
          r.actions.map (fun a => (far a.actionPos, far a.triggerPos)))) ∧
      u.mke.spill.map (fun x => (far' x.low, far' x.high, x.count))
        = s.mke.spill.map (fun x => (far x.low, far x.high, x.count)) ∧
      u.mke.lastPosted.map far' = s.mke.lastPosted.map far ∧
      (
        let last := fun (x : Coord → Coord) (e : OriginEntry) => match e with
          | .unknown => none
          | .tracking n p => some (n, x p)
        u.mke.origins.map (last far') = s.mke.origins.map (last far)) ∧
      (
        let cut := fun (x : Coord → Coord) (f : OutFrame) => match f with
          | .cutover k n => OutFrame.cutover (x k) n
          | g => g
        u.lbi.normal.map (cut far') = s.lbi.normal.map (cut far) ∧
        u.lbi.slot.map (fun y => (cut far' y.frame, y.failed))
          = s.lbi.slot.map (fun y => (cut far y.frame, y.failed))) ∧
      (∀ n, (u.scu.windows.get n).map (fun w => (far' w.centre, far' w.close, w.half))
        = (s.scu.windows.get n).map (fun w => (far w.centre, far w.close, w.half))) ∧
      (∀ n, (u.scu.captures.get n).map (fun c => (far' c.1, c.2))
        = (s.scu.captures.get n).map (fun c => (far c.1, c.2))) ∧
      (∀ ch stop, (s.cfg.outputs.get ch).unit = .wu → (s.aou.channels.get ch).state = .pulsing stop →
        ∃ stop', (u.aou.channels.get ch).state = .pulsing stop' ∧ far' stop' = far stop) ∧
      u.rmu.current.map (fun c => (c.number, far' c.start, c.cut.map far'))
        = s.rmu.current.map (fun c => (c.number, far c.start, c.cut.map far)) ∧
      u.rmu.next.map (fun c => (c.number, far' c.start)) = s.rmu.next.map (fun c => (c.number, far c.start)) ∧
      u.rmu.closed = s.rmu.closed)

/-! ### Claims -/

/-- A HOLD frame with good content adds or replaces its record, LIVE, and its origin is heard now; CLAIM REVIVED where
the record replaced was STALE. A RELEASE frame with good content removes its record, LIVE or STALE, and its origin is
heard now. Either is discarded with CLAIM INVALID where its content fails, and then changes nothing else: an origin
that is no station, a claim number above 3, a reason its number may not carry, a mark reference beside another reason
than MARK or of no station. -/
def Obligations.HoldAndReleaseFrames : Prop :=
  (∀ (s : State) (e : InEntry), FrameNext s .hold e →
    (
      let o := e.frame.origin
      let n := (parseHold e.frame.payload).1
      let reason := (parseHold e.frame.payload).2.1
      let ref := (parseHold e.frame.payload).2.2
      let good := 1 ≤ o ∧ o ≤ 24 ∧
        ((n < 3 ∧ (reason = .mark ∨ reason = .operator)) ∨ (n = 3 ∧ (reason = .desync ∨ reason = .sight))) ∧
        (∀ ro rn, ref = some (ro, rn) → reason = .mark ∧ 1 ≤ ro ∧ ro ≤ 24)
      (good → ∃ (u : State) (held : State), exec .holdFrame s = .next u.driven ∧
        held = s.dequeued.withHtu { s.htu with
          table := held.htu.table
          lastHeard := modifyAt (fun _ => some s.stc.now) (o - 1) s.htu.lastHeard } ∧
        (∀ r, r ∈ held.htu.table ↔
          r = ⟨o, n, reason, ref, false⟩ ∨ (r ∈ s.htu.table ∧ ¬ (r.origin = o ∧ r.claim = n))) ∧
        u = if (s.htu.find o n).any HoldRecord.stale
          then held.notice .claimRevived (some o) none (some 1#32) else held) ∧
      (¬ good → exec .holdFrame s = .next (s.dequeued.notice .claimInvalid (some o) none (some 2#32)).driven))) ∧
  (∀ (s : State) (e : InEntry), FrameNext s .release e →
    (
      let o := e.frame.origin
      let n := byteAt e.frame.payload 0
      (1 ≤ o → o ≤ 24 → n ≤ 3 → ∃ u : State, exec .releaseFrame s = .next u.driven ∧
        u = s.dequeued.withHtu { s.htu with
          table := u.htu.table
          lastHeard := modifyAt (fun _ => some s.stc.now) (o - 1) s.htu.lastHeard } ∧
        (∀ r, r ∈ u.htu.table ↔ r ∈ s.htu.table ∧ ¬ (r.origin = o ∧ r.claim = n))) ∧
      ((o = 0 ∨ 25 ≤ o ∨ 4 ≤ n) →
        exec .releaseFrame s = .next (s.dequeued.notice .claimInvalid (some o) none (some 3#32)).driven)))

/-- A DISMISS frame removes the STALE records of its target, with CLAIMS DISMISSED where there were any. A CENSUS frame
has a CLAIMS frame queued or deferred where the station is on the line, and is not answered in SILENT. Either is
discarded with CLAIM INVALID where its origin, or the target of a DISMISS, is no station. That a target of 32 to 255
is discarded so is the model's choice (log 35). -/
def Obligations.DismissAndCensusFrames : Prop :=
  ∀ (s : State) (e : InEntry),
    (FrameNext s .dismiss e →
      (
        let t := byteAt e.frame.payload 0
        let gone := (s.htu.table.filter (fun r => r.origin == t && r.stale)).length
        let kept := s.dequeued.withHtu { s.htu with
          table := s.htu.table.filter (fun r => !(r.origin == t && r.stale)) }
        (1 ≤ e.frame.origin → e.frame.origin ≤ 24 → 1 ≤ t → t ≤ 24 →
          exec .dismissFrame s = .next (if gone = 0 then kept
            else kept.notice .claimsDismissed (some t) none (some (BitVec.ofNat 32 gone))).driven) ∧
        ((e.frame.origin = 0 ∨ 25 ≤ e.frame.origin ∨ t = 0 ∨ 25 ≤ t) → exec .dismissFrame s = .next
          (s.dequeued.notice .claimInvalid (some e.frame.origin) none (some 4#32)).driven))) ∧
    (FrameNext s .census e →
      (1 ≤ e.frame.origin → e.frame.origin ≤ 24 → s.stc.station ≠ .silent →
        exec .censusFrame s = .next (s.dequeued.request .claims).driven ∧
        (s.lbi.accepts = true → .claims ∈ (s.dequeued.request .claims).lbi.normal ∨
          .claims ∈ (s.dequeued.request .claims).lbi.deferred)) ∧
      (1 ≤ e.frame.origin → e.frame.origin ≤ 24 → s.stc.station = .silent →
        exec .censusFrame s = .next s.dequeued.driven) ∧
      ((e.frame.origin = 0 ∨ 25 ≤ e.frame.origin) → exec .censusFrame s = .next
        (s.dequeued.notice .claimInvalid (some e.frame.origin) none (some 20#32)).driven))

/-- A CLAIMS frame with good content replaces every record of its origin with the claims it lists, LIVE, each keeping
its mark reference where its reason is unchanged, and its origin is heard now; CLAIM REVIVED counts the STALE records
whose claims it lists. The epoch of an ACTIVE sender is adopted in JOINING while ADOPTING, and in DESYNC where it is
ahead; one ahead sends an ACTIVE station to DESYNC, and a ZEROED joining station to LAGGING, with EPOCH AHEAD. A frame
whose content fails is discarded with CLAIM INVALID and changes nothing else: an origin that is no station, a sender
state other than JOINING, ACTIVE or DESYNC, a claim number above 3 or listed twice, a reason its number may not carry.
That EPOCH AHEAD and QUEUE EMPTIED come in the order given (log 8) and stand before CLAIM REVIVED (log 30) is the
model's choice. -/
def Obligations.ClaimsFrameReplacesTheRecords : Prop :=
  ∀ (order : NoticeOrder) (s : State) (e : InEntry), FrameNext s .claims e →
    (
      let o := e.frame.origin
      let epoch := e.frame.payload.getD 0 0
      let sender := byteAt e.frame.payload 1
      let claims := parseClaims e.frame.payload
      let d := (epoch - s.lcu.epoch).toNat
      let ahead := sender = 2 ∧ 1 ≤ d ∧ d ≤ 127
      let listed := fun (table : List HoldRecord) => ∀ r : HoldRecord, r.origin = o →
        (r ∈ table ↔ r.stale = false ∧ (r.claim, r.reason) ∈ claims ∧
          r.ref = match s.htu.find o r.claim with
            | some q => if q.reason = r.reason then q.ref else none
            | none => none)
      let heard := modifyAt (fun _ => some s.stc.now) (o - 1) s.htu.lastHeard
      let fault : Option FaultRecord := some ⟨.epochAhead, s.stc.now, o⟩
      let late := fun (t : State) => t.notice .epochAhead (some o) none (some (BitVec.ofNat 32 d))
      let emptied := fun (t : State) => t.notice .queueEmptied none none
        (some (BitVec.ofNat 32 (s.mke.queue.length + (s.mke.spill.map Spill.count).getD 0)))
      let count := (s.htu.table.filter (fun r =>
        r.origin == o && r.stale && (claims.map Prod.fst).contains r.claim)).length
      let revived := fun (t : State) => if count = 0 then t
        else t.notice .claimRevived (some o) none (some (BitVec.ofNat 32 count))
      let fits := fun (c : Nat × Reason) =>
        (c.1 < 3 ∧ (c.2 = .mark ∨ c.2 = .operator)) ∨ (c.1 = 3 ∧ (c.2 = .desync ∨ c.2 = .sight))
      let good := 1 ≤ o ∧ o ≤ 24 ∧ 1 ≤ sender ∧ sender ≤ 3 ∧ (∀ c ∈ claims, fits c) ∧ (claims.map Prod.fst).Nodup
      (¬ good →
        exec (.claimsFrame order) s = .next (s.dequeued.notice .claimInvalid (some o) none (some 19#32)).driven) ∧
      (good → o ≠ s.cfg.station →
        ∃ u : State, exec (.claimsFrame order) s = .next u.driven ∧ listed u.htu.table ∧ u.htu.lastHeard = heard ∧
          u.pins = s.pins ∧ u.lpt.slot = s.lpt.slot ∧ u.lbi.inbound = s.lbi.inbound.tail ∧
          (s.stc.station = .active ∧ ahead →
            EntersDesync s u ∧ u.stc = { s.stc with station := .desync, fault := fault } ∧
            u.lpt = (revived (match order with
              | .listed => emptied (late s)
              | .reversed => late (emptied s))).lpt) ∧
          (¬ (s.stc.station = .active ∧ ahead) →
            (∀ r : HoldRecord, r.origin ≠ o → (r ∈ u.htu.table ↔ r ∈ s.htu.table)) ∧
            u.lcu =
              (if s.stc.station = .joining ∧ sender = 2 ∧ s.lcu.joinSync = .adopting then { s.lcu with epoch := epoch }
              else if s.stc.station = .joining ∧ ahead ∧ s.lcu.joinSync = .zeroed
                then { s.lcu with joinSync := .lagging }
              else if s.stc.station = .desync ∧ ahead then { s.lcu with epoch := epoch, deltaPrev := none }
              else s.lcu) ∧
            u.stc = (if s.stc.station = .joining ∧ ahead ∧ s.lcu.joinSync = .zeroed
              then { s.stc with fault := fault } else s.stc) ∧
            u.lpt = (revived (if s.stc.station = .joining ∧ ahead ∧ s.lcu.joinSync = .zeroed
              then late s else s)).lpt ∧
            u.mke = s.mke ∧ u.aou = s.aou ∧ u.scu = s.scu ∧ u.rmu = s.rmu ∧ u.lbi = s.dequeued.lbi)))

/-! ### CUTOVER frames -/

/-- The loopback of an own CUTOVER makes its set SENT. A CUTOVER frame that is not followed is discarded; one whose cut
is not after the start of the current set is ignored with CUT IGNORED; one not yet reached makes an OPEN set CLOSING,
FOLLOWED, with a NEXT set; one already reached closes an OPEN set there, with what follows a close (O27). At a CLOSING
set the cut moves to the frame's, FOLLOWED, the entries of both sets going by their coordinates (O27), and the set
closes there with the NEXT set following where the cut is already reached. That every closed set of the number becomes
SENT, where several carry it, is the model's choice (log 34). -/
def Obligations.CutoverFrames : Prop :=
  (∀ (s : State) (b : Loopback), LoopbackNext s .cutover b →
    exec .cutoverLoopback s = .next (s.looped.withRmu { s.rmu with
      closed := s.rmu.closed.map (fun c => if c.set.number = field b.frame.payload 4 2
        then { c with announcement := .sent } else c) }).driven) ∧
  (∀ (s : State) (e : InEntry), FrameNext s .cutover e →
    (
      let o := e.frame.origin
      let f : Coord := BitVec.ofNat 32 (field e.frame.payload 0 4)
      let number := field e.frame.payload 4 2
      let followed := s.cfg.rollMap = true ∧ s.cfg.followCuts = true ∧ 1 ≤ o ∧ o ≤ 24 ∧ s.stc.station = .active
      let opened : RollSet := ⟨s.rmu.nextSet, f, none, none, false, false, false, 0, []⟩
      let advanced := if s.rmu.nextSet < 65535 then s.rmu.nextSet + 1 else 1
      (¬ followed → exec .cutoverFrame s = .next s.dequeued.driven) ∧
      (followed → ∀ cur, s.rmu.current = some cur →
        (before cur.start f = false → exec .cutoverFrame s = .next
          (s.dequeued.notice .cutIgnored (some o) none (some ((2#32 <<< 30) ||| (f &&& 0x3FFFFFFF#32)))).driven) ∧
        (before cur.start f = true → cur.cut = none →
          (reached s.lcu.coord f = false → exec .cutoverFrame s = .next
            (s.dequeued.withRmu { s.rmu with
              current := some { cur with cut := some f, followed := some (o, number) }
              next := some opened
              nextSet := advanced }).driven) ∧
          (reached s.lcu.coord f = true → ∃ (u : State) (fol : RollSet),
            exec .cutoverFrame s = .next u.driven ∧ u.lcu = s.lcu ∧
            u = (s.dequeued.withRmu { s.rmu with nextSet := advanced }).closeSet
              { cur with followed := some (o, number) } opened f false ∧
            u.rmu.current = some fol ∧ fol.start = f ∧ fol.number = s.rmu.nextSet ∧ u.rmu.next = none ∧
            (∃ c ∈ u.rmu.closed, c.set.number = cur.number ∧ c.set.followed = some (o, number) ∧
              c.set.cut = some f ∧ c.endLength = (f - cur.start).toNat ∧ c.announcement = .none))) ∧
        (∀ nxt, before cur.start f = true → cur.cut ≠ none → s.rmu.next = some nxt →
          (
            let moved := s.dequeued.moveCut { cur with followed := some (o, number) } nxt f
            (reached s.lcu.coord f = false → exec .cutoverFrame s = .next
              (moved.1.withRmu { s.rmu with current := some moved.2.1, next := some moved.2.2 }).driven) ∧
            (reached s.lcu.coord f = true → ∃ (u : State) (fol : RollSet),
              exec .cutoverFrame s = .next u.driven ∧ u.lcu = s.lcu ∧ u.rmu.nextSet = s.rmu.nextSet ∧
              u = moved.1.closeSet moved.2.1 moved.2.2 f false ∧
              u.rmu.current = some fol ∧ fol.start = f ∧ fol.number = nxt.number ∧ u.rmu.next = none ∧
              (∃ c ∈ u.rmu.closed, c.set.number = cur.number ∧ c.set.followed = some (o, number) ∧
                c.set.cut = some f ∧ c.endLength = (f - cur.start).toNat ∧ c.announcement = .none)))))))

/-! ### Timers and the line -/

/-- Events with one small effect each: the timebase, the end of QUIET, the end of a pending read, the idle of the line,
the end of the yield gap, a start bit, and a lost arbitration. That the recessive run is set by these commands alone is
the model's choice (log 4). -/
def Obligations.PlainTimerAndLineEvents : Prop :=
  ∀ s : State, s.live = true →
    exec .timebaseAdvance s = .next (s.withStc { s.stc with now := s.stc.now + 1 }).driven ∧
    (∀ t, s.lbi.mode = .quiet → s.lbi.quiet = some t → reached s.stc.now t = true →
      exec .quietExpiry s = .next (s.withLbi { s.lbi with mode := .ready, quiet := none }).driven) ∧
    (∀ n t, s.rmu.pendingRead = some (n, t) → reached s.stc.now t = true →
      exec .discardExpiry s = .next (s.withRmu { s.rmu with pendingRead := none }).driven) ∧
    (s.lbi.mode ≠ .off →
      (s.lbi.line = .waitIdle →
        exec .lineIdle s = .next (s.withLbi { s.lbi with line := .idle, recessiveRun := 11 }).driven) ∧
      (s.lbi.line = .idle → s.lbi.yieldPending = true →
        exec .yieldGapEnd s = .next (s.withLbi { s.lbi with yieldPending := false, recessiveRun := 19 }).driven) ∧
      (s.lbi.attempt = none → s.lbi.line = .idle →
        exec .startBitRead s = .next (s.withLbi { s.lbi with line := .frame, recessiveRun := 0 }).driven) ∧
      (s.lbi.attempt = none → s.lbi.line ≠ .idle →
        exec .startBitRead s = .next (s.withLbi { s.lbi with recessiveRun := 0 }).driven)) ∧
    (s.lbi.attempt ≠ none →
      exec .arbitrationLost s = .next (s.withLbi { s.lbi with attempt := none, recessiveRun := 0 }).driven)

/-- An origin silent for three refresh periods has its LIVE records made STALE with one CLAIM STALE. An expiry of the
refresh timer asks for a CLAIMS frame while there are own claims or a tail, which it counts down; with neither the
timer stops. That a timer restarts from the present time is deduced (log 22). -/
def Obligations.StalenessAndRefresh : Prop :=
  ∀ s : State, s.live = true →
    (∀ o t, s.configured = true → o ≠ s.cfg.station →
      (∃ r ∈ s.htu.table, r.origin = o ∧ r.stale = false) →
      s.htu.lastHeard.getD (o - 1) none = some t → 3 * s.cfg.refreshPeriod ≤ (s.stc.now - t).toNat →
      exec (.claimStale o) s = .next
        ((s.withHtu { s.htu with
          table := s.htu.table.map (fun r => if r.origin = o then { r with stale := true } else r) }).notice
            .claimStale (some o) none (some (BitVec.ofNat 32
              (s.htu.table.filter (fun r => r.origin == o && !r.stale)).length))).driven) ∧
    (∀ t, (s.stc.station = .joining ∨ s.stc.station = .active ∨ s.stc.station = .desync) →
      s.htu.refresh = some t → reached s.stc.now t = true →
      (
        let next : Option Time := some (s.stc.now + BitVec.ofNat 32 s.cfg.refreshPeriod)
        ((∃ r ∈ s.htu.table, r.origin = s.cfg.station) →
          exec .refreshExpiry s = .next ((s.withHtu { s.htu with refresh := next }).request .claims).driven) ∧
        ((∀ r ∈ s.htu.table, r.origin ≠ s.cfg.station) →
          (0 < s.htu.tail → exec .refreshExpiry s = .next ((s.withHtu { s.htu with
            refresh := next, tail := s.htu.tail - 1 }).request .claims).driven) ∧
          (s.htu.tail = 0 → exec .refreshExpiry s = .next (s.withHtu { s.htu with refresh := none }).driven))))

/-- At the end of the join interval a ZEROED station becomes ACTIVE and releases its DESYNC claim; an ADOPTING or
LAGGING one enters DESYNC. JOIN DONE tells the state entered and the join sync; at an entry to DESYNC it comes with
QUEUE EMPTIED, in the order given. That the order is an operand is the model's choice (log 8). -/
def Obligations.JoinEnds : Prop :=
  ∀ (order : NoticeOrder) (s : State) (t : Time), s.live = true → s.stc.station = .joining →
    s.stc.join = some t → reached s.stc.now t = true →
    ∃ u : State, exec (.joinDone order) s = .next u.driven ∧ u.lpt.slot = s.lpt.slot ∧ u.pins = s.pins ∧
      (s.lcu.joinSync = .zeroed →
        u.stc = { s.stc with station := .active, join := none } ∧ u.lcu = s.lcu ∧ u.mke = s.mke ∧ u.aou = s.aou ∧
        u.scu = s.scu ∧ u.rmu = s.rmu ∧ u.holdsFor 3 .desync = false ∧
        u.lpt = (s.notice .joinDone none none (some 513#32)).lpt) ∧
      (s.lcu.joinSync ≠ .zeroed →
        EntersDesync s u ∧ u.stc = { s.stc with station := .desync, join := none } ∧
        (
          let done := fun (x : State) =>
            x.notice .joinDone none none (some (768#32 + BitVec.ofNat 32 s.lcu.joinSync.code))
          let emptied := fun (t : State) => t.notice .queueEmptied none none
            (some (BitVec.ofNat 32 (s.mke.queue.length + (s.mke.spill.map Spill.count).getD 0)))
          u.lpt = (match order with
            | .listed => emptied (done s)
            | .reversed => done (emptied s)).lpt))

/-! ### Sending and receiving -/

/-- The frames as sent, with the payloads of section 10.4: numbers most significant byte first, a HOLD's claim byte
with its reason and its mark reference flag, a MARK's kind byte with its FRESH flag. A payload is taken apart in the
same places, so a number, a ZERO, a HOLD, a CUTOVER, a MARK and a claim byte come out as they were put in. -/
def Obligations.LineFramePayloads : Prop :=
  (∀ (count n : Nat) (pre rest : List Byte), n < 256 ^ count →
    (bytesBE count n).length = count ∧ field (pre ++ bytesBE count n ++ rest) pre.length count = n) ∧
  (∀ n : Nat, bytesBE 4 n = [BitVec.ofNat 8 (n / 16777216), BitVec.ofNat 8 (n / 65536), BitVec.ofNat 8 (n / 256),
    BitVec.ofNat 8 n] ∧ bytesBE 3 n = (bytesBE 4 n).drop 1 ∧ bytesBE 2 n = (bytesBE 4 n).drop 2) ∧
  (∀ s : State,
    (
      let byte := fun (n : Nat) => BitVec.ofNat 8 n
      let code := fun (r : Reason) => match r with
        | .mark => 0
        | .operator => 1
        | .desync => 2
        | .sight => 3
      (∀ z path, s.lineFrame (.zero z path) = ⟨.zero, s.cfg.station, bytesBE 4 z.toNat ++ bytesBE 3 path⟩ ∧
        (path < 16777216 → parseZero (s.lineFrame (.zero z path)).payload = (z, path))) ∧
      (∀ n r,
        s.lineFrame (.hold n r none) = ⟨.hold, s.cfg.station, [byte (n % 16 + 16 * code r), 0, 0, 0]⟩ ∧
        (∀ o k, s.lineFrame (.hold n r (some (o, k))) =
          ⟨.hold, s.cfg.station, [byte (n % 16 + 16 * code r + 64), byte o] ++ bytesBE 2 k.toNat⟩) ∧
        (n < 16 → parseHold (s.lineFrame (.hold n r none)).payload = (n, r, none) ∧
          ∀ o k, o < 256 → parseHold (s.lineFrame (.hold n r (some (o, k)))).payload = (n, r, some (o, k)))) ∧
      (∀ n, s.lineFrame (.release n) = ⟨.release, s.cfg.station, [byte n]⟩) ∧
      (∀ t, s.lineFrame (.dismiss t) = ⟨.dismiss, s.cfg.station, [byte t]⟩) ∧
      (∀ k n, s.lineFrame (.cutover k n) = ⟨.cutover, s.cfg.station, bytesBE 4 k.toNat ++ bytesBE 2 n⟩ ∧
        (n < 65536 → parseCutover (s.lineFrame (.cutover k n)).payload = (k, n))) ∧
      (∀ m : MarkFrame, s.lineFrame (.mark m) = ⟨.mark, s.cfg.station, bytesBE 2 m.number.toNat ++
          [m.epoch, byte (m.kind.val + if m.fresh then 128 else 0)] ++ bytesBE 4 m.position.toNat ++
          bytesBE 2 m.lanes.toNat ++ bytesBE 2 m.extent⟩ ∧
        (m.extent < 65536 → parseMark (s.lineFrame (.mark m)).payload = m)) ∧
      s.lineFrame .claims = ⟨.claims, s.cfg.station, s.lcu.epoch :: byte s.stc.station.code ::
        (s.htu.table.filter (fun r => r.origin == s.cfg.station)).map
          (fun r => byte (r.claim % 16 + 16 * code r.reason))⟩ ∧
      (∀ (a b : Byte) (claims : List (Nat × Reason)), (∀ c ∈ claims, c.1 < 16) →
        parseClaims (a :: b :: claims.map (fun c => byte (c.1 + 16 * code c.2))) = claims) ∧
      s.lineFrame .census = ⟨.census, s.cfg.station, []⟩)) ∧
  (∀ p : List Byte,
    parseZero p = (BitVec.ofNat 32 (field p 0 4), field p 4 3) ∧
    parseCutover p = (BitVec.ofNat 32 (field p 0 4), field p 4 2) ∧
    parseMark p = ⟨BitVec.ofNat 16 (field p 0 2), p.getD 2 0, Fin.ofNat 8 (byteAt p 3), (byteAt p 3).testBit 7,
      BitVec.ofNat 32 (field p 4 4), BitVec.ofNat 16 (field p 8 2), field p 10 2⟩ ∧
    (parseHold p).1 = byteAt p 0 % 16 ∧ (parseHold p).2.1.code = byteAt p 0 / 16 % 4 ∧
    (parseHold p).2.2 = if (byteAt p 0).testBit 6 then some (byteAt p 1, BitVec.ofNat 16 (field p 2 2)) else none)

/-- An attempt starts in READY on an idle line with the slot's frame, else the head of the urgent class, else that of
the normal class with no yield pending, none of them barred. The frame moves to the slot with no failure, and the place
it frees goes to a deferred request. A CLAIMS frame is built from the present claims. -/
def Obligations.AttemptStarts : Prop :=
  ∀ s : State, s.live = true → s.lbi.mode = .ready → s.lbi.line = .idle →
    (
      let barred := fun (f : OutFrame) =>
        (f.kind = .cutover ∧ (s.lbi.loopback ≠ none ∨ ∃ e ∈ s.lbi.inbound, e.frame.kind = .zero)) ∨
        (f.kind = .zero ∧ s.lbi.loopback ≠ none)
      let started := fun (l : Lbi) (x : SendSlot) => s.withLbi { l with
        slot := some x, attempt := some (s.lineFrame x.frame), line := .frame, recessiveRun := 0 }
      (∀ x, s.lbi.slot = some x → ¬ barred x.frame → (x.frame.kind.normalClass = false ∨ s.lbi.yieldPending = false) →
        exec .attemptStart s = .next (started s.lbi x).driven) ∧
      (∀ f fs, s.lbi.slot = none → s.lbi.urgent = f :: fs → ¬ barred f →
        exec .attemptStart s = .next
          (started (Lbi.settleDeferred s.lbi { s.lbi with urgent := fs }) ⟨f, 0⟩).driven) ∧
      (∀ g gs, s.lbi.slot = none → (∀ f fs, s.lbi.urgent = f :: fs → barred f) → s.lbi.normal = g :: gs →
        ¬ barred g → s.lbi.yieldPending = false →
        exec .attemptStart s = .next
          (started (Lbi.settleDeferred s.lbi { s.lbi with normal := gs }) ⟨g, 0⟩).driven) ∧
      s.lineFrame .claims = ⟨.claims, s.cfg.station, s.lcu.epoch :: BitVec.ofNat 8 s.stc.station.code ::
        (s.htu.table.filter (fun r => r.origin == s.cfg.station)).map
          (fun r => BitVec.ofNat 8 (r.claim % 16 + 16 * r.reason.code))⟩)

/-- A bit error ends the attempt and counts; the first failure of a frame is noticed, and the eighth drops it with SEND
FAILED, a fault record and QUIET, and the set of a CUTOVER frame becomes NOT SENT. That this goes for each closed set
of its number is the model's choice (log 34), and so is the recessive run the error leaves (log 4). -/
def Obligations.BitErrorAbortsTheAttempt : Prop :=
  ∀ (s : State) (f : LineFrame) (x : SendSlot), s.live = true → s.lbi.attempt = some f → s.lbi.slot = some x →
    (
      let kind := some (BitVec.ofNat 32 x.frame.kind.byte)
      let station := some s.cfg.station
      let aborted := (s.withLbi { s.lbi with
          slot := some { x with failed := x.failed + 1 }, attempt := none, line := .waitIdle
          recessiveRun := 0 }).withStc { s.stc with counters := { s.stc.counters with
            framesAborted := holdInc 65535 s.stc.counters.framesAborted } }
      (x.failed = 0 →
        exec .frameAborted s = .next (aborted.notice .frameAborted station none kind).driven) ∧
      (1 ≤ x.failed → x.failed ≤ 6 → exec .frameAborted s = .next aborted.driven) ∧
      (x.failed = 7 → ∃ u : State, exec .frameAborted s = .next u.driven ∧
        u = ((((aborted.notice .sendFailed station none kind).withStc { aborted.stc with
            counters := { aborted.stc.counters with framesDropped := holdInc 65535 s.stc.counters.framesDropped }
            fault := some ⟨.sendFailed, s.stc.now, s.cfg.station⟩ }).withRmu u.rmu).withLbi { aborted.lbi with
              slot := none, mode := .quiet
              quiet := some (s.stc.now + BitVec.ofNat 32 s.cfg.quietInterval) }) ∧
        u.rmu = match x.frame with
          | .cutover _ n => { s.rmu with closed := s.rmu.closed.map (fun c =>
              if c.set.number = n then { c with announcement := .notSent } else c) }
          | _ => s.rmu))

/-- At the frame end of an own frame the slot is empty, and a normal frame leaves the yield pending. A ZERO or CUTOVER
goes to the loopback with the raw count, a MARK with FRESH ends FRESH pending, a DISMISS is applied here, and the other
kinds hand nothing on. The recessive run is the frame's own last one (log 4). -/
def Obligations.OwnFrameEnds : Prop :=
  ∀ (s : State) (f : LineFrame) (x : SendSlot), s.live = true → s.lbi.attempt = some f → s.lbi.slot = some x →
    (
      let sent := s.withLbi { s.lbi with
        slot := none, attempt := none, yieldPending := s.lbi.yieldPending || f.kind.normalClass, errorRun := false
        line := .waitIdle, recessiveRun := trailingRecessive f.wire }
      ((x.frame.kind = .zero ∨ x.frame.kind = .cutover) → exec .ownFrameEnd s = .next
        (sent.withLbi { sent.lbi with loopback := some ⟨f, s.lcu.raw, s.lbi.inbound.length⟩ }).driven) ∧
      (∀ m, x.frame = .mark m → exec .ownFrameEnd s = .next
        (sent.withMke { s.mke with freshPending := s.mke.freshPending && !m.fresh }).driven) ∧
      (∀ t, x.frame = .dismiss t → exec .ownFrameEnd s = .next (sent.dismissStale t).driven) ∧
      ((x.frame.kind = .hold ∨ x.frame.kind = .release ∨ x.frame.kind = .claims ∨ x.frame.kind = .census) →
        exec .ownFrameEnd s = .next sent.driven))

/-- A receiver counts a faulty frame and notices the first of an error run. A valid frame of another station goes to
the inbound buffer with the raw count, or is dropped and counted at a full one, noticed once in a run; a frame of this
station's own number sends it to SILENT and MUTE. -/
def Obligations.ReceiverReadsFrames : Prop :=
  ∀ (bits : List Bool) (s : State), s.live = true → s.lbi.mode ≠ .off → s.lbi.line = .frame →
    s.lbi.attempt = none →
    (
      let run := trailingRecessive bits
      (∀ cause, readFrame bits = .fault cause →
        (
          let counted := (s.withLbi { s.lbi with
            line := .waitIdle, recessiveRun := run, errorRun := true }).withStc { s.stc with
              counters := { s.stc.counters with receiveErrors := holdInc 65535 s.stc.counters.receiveErrors } }
          exec (.receiveError bits) s = .next (if s.lbi.errorRun then counted
            else counted.notice .receiveError none none (some (BitVec.ofNat 32 cause))).driven)) ∧
      (∀ f order, readFrame bits = .valid f → f.origin ≠ s.cfg.station →
        (
          let read := s.withLbi { s.lbi with line := .waitIdle, recessiveRun := run, errorRun := false }
          (s.lbi.inbound.length < 8 → exec (.validFrameEnd bits order) s = .next (read.withLbi { read.lbi with
            inbound := s.lbi.inbound ++ [⟨f, s.lcu.raw⟩], overrunRun := false }).driven) ∧
          (8 ≤ s.lbi.inbound.length →
            (
              let counted := read.withStc { s.stc with counters := { s.stc.counters with
                inboundOverruns := holdInc 65535 s.stc.counters.inboundOverruns } }
              exec (.validFrameEnd bits order) s = .next (if s.lbi.overrunRun then counted
                else ((counted.notice .inboundOverrun (some f.origin) none
                  (some (BitVec.ofNat 32 f.kind.byte))).withStc { counted.stc with
                    fault := some ⟨.inboundOverrun, s.stc.now, f.origin⟩ }).withLbi
                      { read.lbi with overrunRun := true }).driven)))) ∧
      (∀ f order, readFrame bits = .valid f → f.origin = s.cfg.station →
        (s.stc.station = .joining ∨ s.stc.station = .active ∨ s.stc.station = .desync) →
        ∃ u : State, exec (.validFrameEnd bits order) s = .next u.driven ∧
          u.stc = { s.stc with
            station := .silent, join := none, fault := some ⟨.duplicateStation, s.stc.now, s.cfg.station⟩ } ∧
          u.htu = { s.htu with refresh := none, tail := 0 } ∧
          u.lbi = { s.lbi with
            line := .waitIdle, recessiveRun := run, errorRun := false, urgent := [], normal := [], slot := none
            deferred := [], quiet := none, yieldPending := false, mode := .mute } ∧
          u.lcu = s.lcu ∧ u.mke = s.mke ∧ u.aou = s.aou ∧ u.scu = s.scu ∧ u.pins = s.pins ∧
          u.lpt.slot = s.lpt.slot ∧
          (s.lpt.notices.length < 31 →
            (∃ n ∈ u.lpt.notices, n.kind = .duplicateStation ∧ n.origin = some s.cfg.station ∧
              n.value = some (BitVec.ofNat 32 f.kind.byte)) ∧
            (∃ n ∈ u.lpt.notices, n.kind = .outboundDiscarded))))

/-- What a receiver makes of the bits it reads, from the start bit on; `fields` are the bits after it with the stuff
bits taken out. Before the last check bit it finds nothing, but cause 1 at six equal bits, cause 2 at the last bit of a
length field above 12, and cause 3 at the last check bit, where the check differs from the CRC of the bits before it:
the register starts at FFFFh and shifts left at each bit, 5937h exclusive-ored where the bit shifted out differs from
the data bit. With the check right, a dominant bit in the end marker is cause 4; a stuff bit due after the check stands
before the marker, and is cause 1 where it is wrong (log 17). At the last bit of the marker an unknown kind is cause 5
and a length its kind may not have cause 6; any other frame is valid, with the fields read. The bits after a result are
not looked at. -/
def Obligations.FaultyFramesGiveTheirCause : Prop :=
  ∀ fields : List Bool,
    (
      let sent := false :: stuff false 1 fields
      let part := fun (i n : Nat) => numberOf ((fields.drop i).take n)
      let len := part 10 4
      let check := (fields.take (fields.length - 16)).foldl
        (fun (reg : BitVec 16) bit => if reg.msb = bit then reg <<< 1 else (reg <<< 1) ^^^ 0x5937#16) 0xFFFF#16
      let short := fields.length < 14 ∨ (len ≤ 12 ∧ fields.length < 30 + 8 * len)
      let whole := 14 ≤ fields.length ∧ len ≤ 12 ∧ fields.length = 30 + 8 * len
      let right := part (fields.length - 16) 16 = check.toNat
      let kinds : List (Nat × FrameKind × List Nat) := [(1, .zero, [7]), (2, .hold, [4]), (3, .release, [1]),
        (4, .dismiss, [1]), (17, .cutover, [6]), (18, .mark, [12]), (19, .claims, [2, 3, 4, 5, 6]), (20, .census, [0])]
      (short → ∀ n, readFrame (sent.take n) = .incomplete) ∧
      (short ∨ (whole ∧ right) → ∀ pre b rest, sent = pre ++ List.replicate 5 b ++ [!b] →
        readFrame (pre ++ List.replicate 6 b ++ rest) = .fault 1) ∧
      (fields.length = 14 → 12 < len → ∀ rest, readFrame (sent ++ rest) = .fault 2) ∧
      (whole → ¬ right → ∀ rest, readFrame (sent ++ rest) = .fault 3) ∧
      (whole → right →
        (∀ i rest, i < 7 → readFrame (sent ++ List.replicate i true) = .incomplete ∧
          readFrame (sent ++ List.replicate i true ++ false :: rest) = .fault 4) ∧
        (∀ rest,
          (
            let result := readFrame (sent ++ List.replicate 7 true ++ rest)
            ((∀ x ∈ kinds, x.1 ≠ part 0 1 * 16 + part 1 4) → result = .fault 5) ∧
            (∀ x ∈ kinds, x.1 = part 0 1 * 16 + part 1 4 →
              (len ∉ x.2.2 → result = .fault 6) ∧
              (len ∈ x.2.2 → result = .valid
                ⟨x.2.1, part 5 5, (List.range len).map (fun i => BitVec.ofNat 8 (part (14 + 8 * i) 8))⟩))))))

/-- A frame is sent as start bit, class, kind code, origin, payload length, payload and check, each most significant
bit first, and seven recessive bits of end marker. A stuff bit of the other level follows every five equal bits from
the start bit to the last check bit. The check is the register that starts at FFFFh and shifts left at each bit from
the class to the last payload bit, with 5937h exclusive-ored where the bit shifted out differs from the data bit. Every
frame so sent, its length one its kind may have, is read back as the same frame by a receiver. -/
def Obligations.FrameOnTheLineReadsBack : Prop :=
  (∀ f : LineFrame,
    (
      let number := fun (width n : Nat) => (List.range width).map (fun i => n.testBit (width - 1 - i))
      let kind : Nat := match f.kind with
        | .zero => 1
        | .hold => 2
        | .release => 3
        | .dismiss => 4
        | .cutover => 17
        | .mark => 18
        | .claims => 19
        | .census => 20
      let fields := number 5 kind ++ number 5 f.origin ++ number 4 f.payload.length
        ++ f.payload.flatMap (fun b => number 8 b.toNat)
      let check := fields.foldl
        (fun (reg : BitVec 16) bit => if reg.msb = bit then reg <<< 1 else (reg <<< 1) ^^^ 0x5937#16) 0xFFFF#16
      f.wire = false :: (stuff false 1 (fields ++ number 16 check.toNat) ++ List.replicate 7 true))) ∧
  stuff false 1 [] = [] ∧
  (∀ (fields : List Bool) (b : Bool),
    (
      let sent := false :: (stuff false 1 fields ++ [b])
      stuff false 1 (fields ++ [b]) = stuff false 1 fields ++ [b] ++
        (if sent.drop (sent.length - 5) = List.replicate 5 b then [!b] else []))) ∧
  (∀ f : LineFrame, f.origin < 32 → f.kind.lengthOk f.payload.length = true → readFrame f.wire = .valid f)

/-! ### The local port -/

/-- A transaction shifts out, bit by bit and most significant bit first, the response held, or NOTREADY while a request
is prepared, and FFh after it. A good request frame, whatever is clocked in after it, is taken where the slot was
READY; a bad one makes the slot BADFRAME, and bits beyond the last complete byte are not read; one with no complete
byte leaves the slot; a preparing slot stays. Where LCS has been low since the reset, its rise ends no transaction. -/
def Obligations.TransactionsMoveTheSlot : Prop :=
  ∀ (s : State), s.live = true →
    (s.pins.lcs = .low → ∀ bits,
      exec (.localTransaction bits) s = .next (s.withPins { s.pins with lcs := .high }).driven) ∧
    (s.pins.lcs = .high → ∀ bits, ∃ u : State, exec (.localTransaction bits) s = .next u.driven ∧
      u = (s.withPins { s.pins with ldo := u.pins.ldo }).withLpt { s.lpt with slot := u.lpt.slot } ∧
      u.pins.ldo.length = bits.length ∧
      (
        let out := (match s.lpt.slot with
          | .ready r => r.frame
          | .preparing code _ => (Response.mk code .notready []).frame)
        ∀ i, i < bits.length → u.pins.ldo[i]? = some ((out.getD (i / 8) 0xFF).getMsbD (i % 8))) ∧
      (∀ code p, s.lpt.slot = .preparing code p → u.lpt.slot = .preparing code p) ∧
      (
        let bitsOfBytes := fun (bytes : List Byte) =>
          bytes.flatMap (fun b => (List.range 8).map (fun i => b.getMsbD i))
        ∀ r, s.lpt.slot = .ready r →
          (bits.length < 8 → u.lpt.slot = .ready r) ∧
          (∀ code p extra, p.length ≤ 512 → bits = bitsOfBytes (requestFrame code p) ++ extra →
            u.lpt.slot = .preparing code p) ∧
          (∀ bytes extra code rest, bits = bitsOfBytes bytes ++ extra → extra.length < 8 → bytes = code :: rest →
            (bytes.length < 3 ∨ 512 < field bytes 1 2 ∨ bytes.length < 4 + field bytes 1 2 ∨
              (bytes.take (4 + field bytes 1 2)).foldl (· + ·) 0 ≠ 0) →
            u.lpt.slot = .ready ⟨code, .badframe, []⟩)))

/-- The checks of section 9.2 at a configuration block, field by field in index order, and the settings an accepted
block codes. The block is refused with the lowest index whose field fails; the fields of table entries beyond the count
of their kind, and settings that the function or the cut channel leaves unused, are not checked. That by extent is 0 or
1 is deduced (log 26). -/
def Obligations.ConfigurationBlock : Prop :=
  ∀ p : List Byte,
    (
      let b := byteAt p
      let signed := fun (i : Nat) => (BitVec.ofNat 32 (field p i 4)).toInt
      let general := fun (i : Nat) => match i with
        | 1 => 1 ≤ b 0 ∧ b 0 ≤ 24
        | 3 => 1 ≤ b 4 ∧ b 4 ≤ 3
        | 4 => 1 ≤ field p 5 2
        | 5 => 1 ≤ field p 7 2
        | 6 => b 9 ≤ 1
        | 8 => 1 ≤ b 12 ∧ b 12 ≤ 16
        | 9 => b 13 ≤ 1
        | 10 => b 14 ≤ 1
        | 11 => b 15 ≤ 4
        | 12 => b 15 = 0 ∨ 1 ≤ field p 16 2
        | 13 => b 18 ≤ 2
        | 14 => 1 ≤ field p 19 2
        | 15 => b 21 ≤ 15
        | 16 => 100 ≤ field p 22 2 ∧ field p 22 2 ≤ 1000
        | 17 => 10 ≤ field p 24 2 ∧ field p 24 2 ≤ 1000
        | 18 => 50 ≤ field p 26 2 ∧ field p 26 2 ≤ 2000
        | 19 => 10 ≤ b 28 ∧ b 28 ≤ 250
        | _ => True
      let sensor := fun (at' field' : Nat) => match field' with
        | 0 => b at' ≤ 2
        | 1 => -100000 ≤ signed (at' + 1) ∧ signed (at' + 1) ≤ 100000
        | 2 => b (at' + 5) ≤ 3 ∧ (b (at' + 5) = 3 → b 13 = 1)
        | 3 => b (at' + 5) = 1 → b (at' + 6) ≤ 6
        | _ => b (at' + 5) = 1 → 1 ≤ field p (at' + 7) 2 ∧ field p (at' + 7) 2 < 2 ^ b 12
      let entry := fun (at' field' : Nat) => match field' with
        | 0 => b at' ≤ 7
        | 1 =>
          if b at' ≤ 3 then 1 ≤ b (at' + 1) ∧ b (at' + 1) ≤ 4
          else if b at' = 5 then 1 ≤ b (at' + 1) ∧ b (at' + 1) ≤ 4 ∧ b (42 + 9 * (b (at' + 1) - 1)) = 2
          else b at' ≤ 7 ∧ b (at' + 1) = 0
        | 2 => -1000000 ≤ signed (at' + 2) ∧ signed (at' + 2) ≤ 1000000
        | 3 => 1 ≤ field p (at' + 6) 2
        | _ => b (at' + 8) ≤ 1 ∧ ¬ (b at' = 0 ∧ b (30 + 2 * (b (at' + 1) - 1)) = 1 ∧ b (at' + 8) = 1)
      let good := fun (i : Nat) =>
        if i ≤ 19 then general i
        else if i ≤ 27 then b (i + 9) ≤ 1
        else if i ≤ 47 then sensor (37 + 9 * ((i - 28) / 5)) ((i - 28) % 5)
        else
          (
            let count := b (73 + 37 * ((i - 48) / 21))
            if (i - 48) % 21 = 0 then count ≤ 4
            else
              (
                let j := ((i - 48) % 21 - 1) / 5
                j < count → entry (74 + 37 * ((i - 48) / 21) + 9 * j) (((i - 48) % 21 - 1) % 5)))
      (∀ i, firstFailing p = some i ↔ 1 ≤ i ∧ i ≤ 215 ∧ ¬ good i ∧ ∀ j, 1 ≤ j → j < i → good j) ∧
      (firstFailing p = none ↔ ∀ i, 1 ≤ i → i ≤ 215 → good i) ∧
      (firstFailing p = none →
        (
          let c := parseSettings p
          let param := fun (x : Option (Fin 4)) (n : Nat) => x.map Fin.val = if n = 0 then none else some (n - 1)
          c.station = b 0 ∧ c.path = field p 1 3 ∧ [BusRate.k250, .k500, .k1000][b 4 - 1]? = some c.busRate ∧
          c.ratioN = field p 5 2 ∧ c.ratioD = field p 7 2 ∧ [Sense.normal, .inverted][b 9]? = some c.sense ∧
          c.reverseAllowance = field p 10 2 ∧ c.laneCount = b 12 ∧ c.rollMap = decide (b 13 = 1) ∧
          c.followCuts = decide (b 14 = 1) ∧ param c.cutChannel (b 15) ∧ c.cutWidth = field p 16 2 ∧
          [TrimGain.full, .half, .quarter][b 18]? = some c.trimGain ∧ c.trimLimit = field p 19 2 ∧
          c.missLimit = b 21 ∧ c.refreshPeriod = field p 22 2 ∧ c.quietInterval = field p 24 2 ∧
          c.joinInterval = field p 26 2 ∧ c.discardInterval = b 28 ∧
          (∀ n : Fin 4,
            [Level.low, .high][b (29 + 2 * n.val)]? = some (c.outputs.get n).idle ∧
            [WidthUnit.wu, .ms][b (30 + 2 * n.val)]? = some (c.outputs.get n).unit ∧
            [EdgeSetting.rising, .falling, .both][b (37 + 9 * n.val)]? = some (c.sensors.get n).edge ∧
            (c.sensors.get n).offset = signed (38 + 9 * n.val) ∧
            [SensorFunction.off,
              .source (Fin.ofNat 8 (b (43 + 9 * n.val))) (BitVec.ofNat 16 (field p (44 + 9 * n.val) 2)),
              .sight, .cut][b (42 + 9 * n.val)]? = some (c.sensors.get n).function) ∧
          (∀ k : Fin 8, (tableEntries c k).length = b (73 + 37 * k.val) ∧
            ∀ (j : Nat) (e : TableEntry), (tableEntries c k)[j]? = some e →
              (
                let at' := 74 + 37 * k.val + 9 * j
                [ActionType.pulse, .set, .clear, .toggle, .hold, .sight, .record, .note][b at']? = some e.type ∧
                param e.param (b (at' + 1)) ∧ e.offset = signed (at' + 2) ∧ e.width = field p (at' + 6) 2 ∧
                e.byExtent = decide (b (at' + 8) = 1))))))

/-- CONFIGURE is refused with the index of the first failing field, and changes nothing; accepted, it stores and locks
the settings, samples the encoder and the sensors, drives each output pin to its idle level, which is one edge where
that is HIGH (counted: log 6), opens set 1 where the roll map is enabled, and enters JOINING with claim 3, CENSUS and
CLAIMS. -/
def Obligations.ConfigureStartsThePart : Prop :=
  ∀ (s : State) (p : List Byte), Requested s .configure p →
    (∀ i, firstFailing p = some i →
      exec .configure s = .next (s.answer .configure .range (bytesBE 2 i)).driven) ∧
    (firstFailing p = none → s.htu.table = [] → s.htu.refresh = none → s.lbi.urgent = [] → s.lbi.normal = [] →
      s.lbi.deferred = [] →
      ∃ u : State, exec .configure s = .next u.driven ∧
        (
          let c := parseSettings p
          u.stc = { s.stc with
            station := .joining, config := some c, locked := true
            join := some (s.stc.now + BitVec.ofNat 32 c.joinInterval) } ∧
          u.lcu = { s.lcu with levels := some (s.pins.enca, s.pins.encb), joinSync := .adopting } ∧
          (∀ n, u.scu.filtered.get n = some (s.pins.sensors.get n)) ∧
          u.rmu = (if c.rollMap then { s.rmu with
              current := some ⟨s.rmu.nextSet, 0, none, none, false, false, false, 0, []⟩
              nextSet := if s.rmu.nextSet < 65535 then s.rmu.nextSet + 1 else 1 } else s.rmu) ∧
          u.htu = { s.htu with
            table := [⟨c.station, 3, .desync, none, false⟩]
            refresh := some (s.stc.now + BitVec.ofNat 32 c.refreshPeriod) } ∧
          u.lbi = { s.lbi with
            mode := .ready, line := .waitIdle, recessiveRun := 0, urgent := [.hold 3 .desync none]
            normal := [.census, .claims] } ∧
          u.lpt = { s.lpt with slot := .ready ⟨0x01, .ok, []⟩ } ∧ u.mke = s.mke ∧ u.pins = s.pins ∧
          (∀ ch, u.aou.channels.get ch = s.aou.channels.get ch ∧ u.aou.edges.get ch = s.aou.edges.get ch +
            (if (c.outputs.get ch).idle = .high then 1 else 0))))

/-- RESTART makes a warm reset and enters JOINING afresh; configuration, lock, fault record, timebase, raw count, epoch
and encoder levels are kept, and a set being wound is closed as INTERRUPTED, with SET CLOSED and a pulse on a cut
channel of width unit MS alone; a CLOSING one first takes back the entries of its NEXT set, whose number the set opened
takes. That the blocks reset before the station state changes is deduced (log 25); the edges the pins make are counted
(log 6). -/
def Obligations.RestartMakesAWarmReset : Prop :=
  ∀ (s : State), Requested s .restart [] →
    ∃ u : State, exec .restart s = .next u.driven ∧
      u.stc.station = .joining ∧ u.stc.config = s.stc.config ∧ u.stc.locked = s.stc.locked ∧ u.stc.now = s.stc.now ∧
      u.stc.join = some (s.stc.now + BitVec.ofNat 32 s.cfg.joinInterval) ∧
      (u.stc.fault = s.stc.fault ∨ u.stc.fault = some ⟨.setLost, s.stc.now, s.cfg.station⟩) ∧
      u.lcu = ⟨s.lcu.levels, s.lcu.raw, .forward, 0, 0, false, s.lcu.epoch, none, .adopting, 0, false,
        s.lcu.encoderOutstanding⟩ ∧
      u.mke.queue = [] ∧ u.mke.spill = none ∧ u.mke.origins = List.replicate 24 .unknown ∧ u.mke.nextNumber = 0 ∧
      u.mke.freshPending = true ∧ u.mke.lastPosted = none ∧
      (∀ n, u.scu.filtered.get n = s.scu.filtered.get n ∧ u.scu.captures.get n = none ∧
        u.scu.windows.get n = []) ∧ u.scu.misses = 0 ∧
      u.htu = ⟨[⟨s.cfg.station, 3, .desync, none, false⟩], List.replicate 24 none,
        some (s.stc.now + BitVec.ofNat 32 s.cfg.refreshPeriod), 0, s.htu.flashes⟩ ∧
      (∀ ch,
        (
          let quiet := s.aou.edges.get ch + (if (s.aou.channels.get ch).state = .idle then 0 else 1)
          if s.rmu.current ≠ none ∧ s.cfg.cutChannel = some ch ∧ (s.cfg.outputs.get ch).unit = .ms then
            u.aou.channels.get ch = ⟨.pulsing (s.stc.now + BitVec.ofNat 32 s.cfg.cutWidth), 0⟩ ∧
            u.aou.edges.get ch = quiet + 1
          else u.aou.channels.get ch = ⟨.idle, 0⟩ ∧ u.aou.edges.get ch = quiet)) ∧
      u.lbi = ⟨.ready, .waitIdle, 0, false, none, [.hold 3 .desync none], [.census, .claims], none, none, [], [],
        none, false, false⟩ ∧
      u.lpt.slot = .ready ⟨0x02, .ok, []⟩ ∧ u.pins = s.pins ∧
      (
        let slot : Slot := .ready ⟨0x02, .ok, []⟩
        let lost := match s.rmu.closed with
          | oldest :: _ => if 4 ≤ s.rmu.closed.length then s.notice .setLost none none (some
              ((BitVec.ofNat 32 oldest.set.number <<< 16) ||| (if oldest.read then 1#32 else 0#32))) else s
          | [] => s
        (s.rmu.current = none → u.lpt = { s.lpt with slot := slot }) ∧
        (∀ cur, s.rmu.current = some cur → cur.entries.length +
            (match s.rmu.next with
              | none => 0
              | some nxt => nxt.entries.length) ≤ 256 →
          (
            let len := if before cur.start s.lcu.coord then (s.lcu.coord - cur.start).toNat else 1
            u.lpt = { (lost.notice .setClosed (some s.cfg.station) none (some ((BitVec.ofNat 32 cur.number <<< 16) |||
              (BitVec.ofNat 32 (min 65535 (len / 10000)) &&& 0xFFFF#32)))).lpt with slot := slot }))) ∧
      (s.rmu.current = none → u.rmu = { s.rmu with closed := u.rmu.closed }) ∧
      (∀ cur, s.rmu.current = some cur → cur.cut = none → s.rmu.next = none →
        ∃ (fol : RollSet) (c : ClosedSet), u.rmu.current = some fol ∧ fol.start = 0 ∧ fol.number = s.rmu.nextSet ∧
          u.rmu.next = none ∧ u.rmu.pendingRead = none ∧ c ∈ u.rmu.closed ∧ c.set.number = cur.number ∧
          c.set.interrupted = true ∧
          c.endLength = (if before cur.start s.lcu.coord then (s.lcu.coord - cur.start).toNat else 1)) ∧
      (∀ cur nxt k, s.rmu.current = some cur → cur.cut = some k → s.rmu.next = some nxt →
        ∃ (fol : RollSet) (c : ClosedSet), u.rmu.current = some fol ∧ fol.start = 0 ∧ fol.number = nxt.number ∧
          u.rmu.nextSet = (if nxt.number < 65535 then nxt.number + 1 else 1) ∧ u.rmu.next = none ∧
          u.rmu.pendingRead = none ∧ c ∈ u.rmu.closed ∧ c.set.number = cur.number ∧ c.set.start = cur.start ∧
          c.set.cut = some s.lcu.coord ∧ c.set.followed = none ∧ c.set.interrupted = true ∧
          c.set.uncertain = (cur.uncertain || nxt.uncertain) ∧
          c.endLength = (if before cur.start s.lcu.coord then (s.lcu.coord - cur.start).toNat else 1) ∧
          (cur.entries.length + nxt.entries.length ≤ 256 →
            c.set.overflow = (cur.overflow || nxt.overflow) ∧
            c.set.entries = ((nxt.entries.map (fun x => { x with
              position := (nxt.start + BitVec.ofNat 32 x.position - cur.start).toInt.toNat })).foldl
                (fun zs y => insertEntry y zs) cur.entries).filterMap (fun x =>
                  if c.endLength ≤ x.position then none
                  else if x.position + x.extent ≤ c.endLength then some x
                  else some { x with extent := c.endLength - x.position, splitTail := true })))

/-- READ STATE, READ MARKS and READ HOLDS answer OK with their records and change nothing; an index or count out of
range is answered RANGE. The records are laid out as section 10.4 gives, with its codes, absent values as 0; that bit 7
of byte 8 of READ STATE is sensor 1 is deduced (log 23), and that an age is taken modulo 2^32, and is absent where no
last-heard time is held, is the model's choice (log 36). -/
def Obligations.ReadsChangeNothing : Prop :=
  [StationState.unconfigured, .joining, .active, .desync, .silent].map StationState.code = [0, 1, 2, 3, 4] ∧
  [JoinSync.adopting, .zeroed, .lagging].map JoinSync.code = [0, 1, 2] ∧
  [SendMode.off, .ready, .quiet, .mute].map SendMode.code = [0, 1, 2, 3] ∧
  [LineState.idle, .frame, .waitIdle].map LineState.code = [0, 1, 2] ∧
  [ActionType.pulse, .set, .clear, .toggle, .hold, .sight, .record, .note].map actionTypeCode =
    [0, 1, 2, 3, 4, 5, 6, 7] ∧
  [ActionState.pending, .armed, .done, .missed].map ActionState.code = [0, 1, 2, 3] ∧
  [Reason.mark, .operator, .desync, .sight].map Reason.code = [0, 1, 2, 3] ∧
  [none, some 0, some 1, some 2, some 3].map paramCode = [0, 1, 2, 3, 4] ∧
  ∀ s : State,
    (
      let byte := fun (n : Nat) => BitVec.ofNat 8 n
      let bit := fun (i : Nat) (x : Bool) => if x then 2 ^ i else 0
      let word := fun (x : Option (BitVec 32)) => bytesBE 4 (x.getD 0).toNat
      let seen := s.scu.captures.map Option.isSome
      let capture := fun (n : Fin 4) =>
        word ((s.scu.captures.get n).map Prod.fst) ++ word ((s.scu.captures.get n).map Prod.snd)
      let picture : List Byte :=
        [byte s.stc.station.code, byte (match s.stc.config with
            | none => 0
            | some c => c.station), byte s.lcu.joinSync.code, s.lcu.epoch]
          ++ bytesBE 4 s.lcu.coord.toNat
          ++ [byte (bit 0 s.lcu.synced + bit 1 (s.pins.runok == .high) + bit 2 s.mke.spill.isSome
              + bit 3 (s.pins.attn == .high) + bit 7 (seen.get 0) + bit 6 (seen.get 1) + bit 5 (seen.get 2)
              + bit 4 (seen.get 3)),
            byte s.lbi.mode.code, byte s.lbi.line.code, byte (s.lbi.urgent.length + s.lbi.normal.length),
            byte s.lbi.normal.length, byte s.lbi.inbound.length, byte s.mke.queue.length, byte s.htu.table.length,
            byte s.lpt.notices.length, byte (match s.rmu.current with
              | none => 0
              | some c => if c.cut = none then 1 else 2)]
          ++ bytesBE 2 ((s.rmu.current.map RollSet.number).getD 0) ++ [byte s.rmu.closed.length, byte s.scu.misses]
          ++ word (s.mke.spill.map Spill.low) ++ word (s.mke.spill.map Spill.high)
          ++ bytesBE 2 ((s.mke.spill.map Spill.count).getD 0)
          ++ capture 0 ++ capture 1 ++ capture 2 ++ capture 3
      let slot := fun (a : Action) =>
        byte (actionTypeCode a.type + 8 * a.state.code + 32 * paramCode a.param) ::
          (bytesBE 4 a.actionPos.toNat ++ bytesBE 4 a.triggerPos.toNat ++ bytesBE 3 a.width)
      let record := fun (i : Nat) (r : MarkRecord) =>
        bytesBE 2 i ++ [byte r.origin] ++ bytesBE 2 (r.number.getD 0).toNat
          ++ [byte r.kind.val, byte (bit 0 r.late + bit 1 r.rebased + bit 2 r.fresh + bit 3 r.spill
            + bit 4 r.number.isSome)]
          ++ bytesBE 2 r.lanes.toNat ++ bytesBE 4 r.position.toNat ++ bytesBE 2 r.extent ++ [byte r.actions.length]
          ++ r.actions.flatMap slot ++ List.replicate (12 * (4 - r.actions.length)) 0
      let age := fun (r : HoldRecord) => if r.origin = s.cfg.station then none
        else (s.htu.lastHeard.getD (r.origin - 1) none).map (fun t => min 65535 (s.stc.now - t).toNat)
      let claim := fun (r : HoldRecord) =>
        [byte r.origin, byte r.claim, byte (r.reason.code + bit 2 r.stale + bit 3 r.ref.isSome + bit 4 (age r).isSome),
          byte ((r.ref.map Prod.fst).getD 0)]
          ++ bytesBE 2 ((r.ref.map Prod.snd).getD 0).toNat ++ bytesBE 2 ((age r).getD 0)
      (Requested s .readState [] → picture.length = 64 ∧
        exec .readState s = .next (s.withLpt { s.lpt with slot := .ready ⟨0x03, .ok, picture⟩ }).driven) ∧
      (∀ p, Requested s .readMarks p →
        (byteAt p 0 ≤ 63 → 1 ≤ byteAt p 1 → byteAt p 1 ≤ 8 →
          (
            let given := (List.range' (byteAt p 0) (byteAt p 1)).filterMap (fun i => (s.mke.queue[i]?).map (record i))
            ((∀ r ∈ s.mke.queue, r.actions.length ≤ 4) → ∀ x ∈ given, x.length = 64) ∧
            exec .readMarks s = .next (s.withLpt { s.lpt with slot := .ready ⟨0x10, .ok,
              [byte s.mke.queue.length, byte given.length] ++ given.flatten⟩ }).driven)) ∧
        ((63 < byteAt p 0 ∨ byteAt p 1 = 0 ∨ 8 < byteAt p 1) →
          exec .readMarks s = .next (s.answer .readMarks .range).driven)) ∧
      (∀ p, Requested s .readHolds p →
        (byteAt p 0 ≤ 95 → 1 ≤ byteAt p 1 → byteAt p 1 ≤ 24 →
          (
            let given := ((s.htu.table.drop (byteAt p 0)).take (byteAt p 1)).map claim
            (∀ x ∈ given, x.length = 8) ∧
            exec .readHolds s = .next (s.withLpt { s.lpt with slot := .ready ⟨0x20, .ok,
              [byte s.htu.table.length, byte (s.htu.table.filter HoldRecord.stale).length,
                byte (bit 0 (s.pins.runok == .high)), byte s.htu.tail] ++ given.flatten⟩ }).driven)) ∧
        ((95 < byteAt p 0 ∨ byteAt p 1 = 0 ∨ 24 < byteAt p 1) →
          exec .readHolds s = .next (s.answer .readHolds .range).driven)))

/-- READ COUNTERS answers, in every station state, with the eight lifetime counters, the last fault record and the
lost-notice count, and clears nothing. -/
def Obligations.ReadCountersReturnsCounters : Prop :=
  [FaultKind.encoderError, .epochAhead, .sendFailed, .inboundOverrun, .setLost, .duplicateStation].map FaultKind.code =
    [1, 2, 3, 4, 5, 6] ∧
  ∀ s : State, s.live = true → s.lpt.slot = .preparing 0x04 [] →
    (
      let c := s.stc.counters
      let payload := bytesBE 2 c.framesAborted ++ bytesBE 2 c.framesDropped ++ bytesBE 2 c.receiveErrors
        ++ bytesBE 2 c.inboundOverruns ++ bytesBE 2 c.marksSpilled ++ bytesBE 2 c.gaps ++ bytesBE 2 c.setsLost
        ++ bytesBE 2 c.encoderErrors
        ++ (match s.stc.fault with
          | none => [0, 0, 0, 0, 0, 0]
          | some f => BitVec.ofNat 8 f.kind.code :: (bytesBE 4 f.time.toNat ++ [BitVec.ofNat 8 f.origin]))
        ++ bytesBE 2 s.lpt.lost
      payload.length = 24 ∧
      exec .readCounters s = .next (s.withLpt { s.lpt with slot := .ready ⟨0x04, .ok, payload⟩ }).driven)

/-- TAKE NOTICES removes and returns the oldest notices; where some were lost, NOTICES LOST follows at once and the
count ends; the ENCODER notice, once taken, is outstanding no more. A count out of range is answered RANGE. The records
are laid out as section 10.4 gives, with its kind codes, absent values as 0. -/
def Obligations.TakeNoticesFreesPlaces : Prop :=
  [NoticeKind.encoder, .reverse, .markInvalid, .markStale, .markDuplicate, .markClash, .gap, .queueSpill,
    .markNotSent, .markLate, .markArrived, .queueEmptied, .outputMerged, .outputSkipped, .holdSlotsFull, .sighted,
    .trimLimit, .sightMissed, .zeroInvalid, .zeroApplied, .epochAhead, .claimInvalid, .claimRevived, .claimStale,
    .claimsDismissed, .setOverflow, .cutNotSent, .setClosed, .cutIgnored, .setLost, .frameAborted, .sendFailed,
    .receiveError, .inboundOverrun, .outboundDiscarded, .joinDone, .duplicateStation, .noticesLost].map
      NoticeKind.code = List.range' 1 38 ∧
  ∀ (s : State) (p : List Byte), Requested s .takeNotices p →
    ((byteAt p 0 = 0 ∨ 4 < byteAt p 0) → exec .takeNotices s = .next (s.answer .takeNotices .range).driven) ∧
    (1 ≤ byteAt p 0 → byteAt p 0 ≤ 4 → s.lpt.notices.length ≤ 32 →
      (
        let given := s.lpt.notices.take (byteAt p 0)
        let told := 0 < s.lpt.lost ∧ given ≠ []
        let left := s.lpt.notices.drop (byteAt p 0) ++ (if told then
          [⟨.noticesLost, s.stc.now, if s.lcu.synced then some s.lcu.coord else none, none, none,
            some (BitVec.ofNat 32 s.lpt.lost)⟩] else [])
        let byte := fun (n : Nat) => BitVec.ofNat 8 n
        let bit := fun (i : Nat) (x : Bool) => if x then 2 ^ i else 0
        let word := fun (x : Option (BitVec 32)) => bytesBE 4 (x.getD 0).toNat
        let record := fun (x : Notice) =>
          [byte x.kind.code, byte (bit 0 x.coord.isSome + bit 1 x.origin.isSome + bit 2 x.number.isSome
            + bit 3 x.value.isSome)]
            ++ bytesBE 4 x.time.toNat ++ word x.coord ++ [byte (x.origin.getD 0)]
            ++ bytesBE 2 (x.number.getD 0).toNat ++ word x.value
        (∀ x ∈ given, (record x).length = 17) ∧
        exec .takeNotices s = .next
          ((s.withLcu { s.lcu with
              encoderOutstanding := s.lcu.encoderOutstanding && !given.any (fun x => x.kind == .encoder) }).withLpt
            ⟨.ready ⟨0x05, .ok, BitVec.ofNat 8 given.length :: BitVec.ofNat 8 left.length ::
                given.flatMap record⟩,
              left, if told then 0 else s.lpt.lost⟩).driven))

/-- POST MARK is refused by its first failing check and then changes nothing. Accepted, it uses the mark number, queues
the MARK frame, moves the own last posted position, offers the mark to the queue, and answers with number, position,
placement and tag. The placement tells what the offer came to; for a repeat of a held mark it is a free value of at
most 3 (log 9). -/
def Obligations.PostMarkStatesAMark : Prop :=
  ∀ (s : State) (p : List Byte), Requested s .postMark p →
    (
      let f := parsePost p
      let q := if f.atCoordinate then s.lcu.coord else f.position
      let good := f.kind ≤ 6 ∧ f.lanes ≠ 0 ∧ f.lanes &&& allLanes s.cfg.laneCount = f.lanes
      let inOrder := ∀ held, s.mke.lastPosted = some held → before q held = false
      let posted := some (match s.mke.lastPosted with
        | none => q
        | some held => if before held q then q else held)
      (s.stc.station ≠ .active → exec .postMark s = .next (s.answer .postMark .state).driven) ∧
      (s.stc.station = .active →
        (¬ good → exec .postMark s = .next (s.answer .postMark .range).driven) ∧
        (good → ¬ inOrder → exec .postMark s = .next (s.answer .postMark .order).driven) ∧
        (good → inOrder → s.lbi.normalFree = false →
          exec .postMark s = .next (s.answer .postMark .busy).driven) ∧
        (good → inOrder → s.lbi.normalFree = true → s.lbi.accepts = true →
          ∃ (u : State) (placement : Byte), exec .postMark s = .next u.driven ∧
            (
              let offered := ((s.withMke { s.mke with
                nextNumber := s.mke.nextNumber + 1, lastPosted := posted }).withLbi { s.lbi with
                  normal := s.lbi.normal ++ [.mark ⟨s.mke.nextNumber, s.lcu.epoch, Fin.ofNat 8 f.kind,
                    s.mke.freshPending, q, f.lanes, f.extent⟩] }).offerMark ⟨s.cfg.station, some s.mke.nextNumber,
                      Fin.ofNat 8 f.kind, q, f.lanes, f.extent, false, s.mke.freshPending, false⟩
              u = (offered.1.withMke { offered.1.mke with
                freeUsed := if offered.2 = .repeated then s.mke.freeUsed + 1 else s.mke.freeUsed }).withLpt
                  { offered.1.lpt with slot := .ready ⟨0x11, .ok,
                    bytesBE 2 s.mke.nextNumber.toNat ++ bytesBE 4 q.toNat ++ [placement] ++ f.tag⟩ } ∧
              (match offered.2 with
                | .queued => placement = 0
                | .spilled => placement = 1
                | .notQueued => placement = 2
                | .clash => placement = 3
                | .repeated => placement.toNat ≤ 3)) ∧
            u.mke.nextNumber = s.mke.nextNumber + 1 ∧ u.mke.origins = s.mke.origins ∧
            u.mke.freshPending = s.mke.freshPending ∧
            u.mke.lastPosted = posted ∧
            u.lbi.normal = s.lbi.normal ++ [.mark ⟨s.mke.nextNumber, s.lcu.epoch, Fin.ofNat 8 f.kind,
              s.mke.freshPending, q, f.lanes, f.extent⟩] ∧
            u.lbi = { s.lbi with urgent := u.lbi.urgent, normal := u.lbi.normal } ∧
            u.lcu = s.lcu ∧ SameStation s.stc u.stc ∧ u.pins = s.pins)))

/-- ZERO, DISMISS, HOLD and RELEASE: the first failing check answers and nothing changes; accepted, ZERO and DISMISS
queue their frames, and HOLD and RELEASE make and release the claim with its frame. -/
def Obligations.OperatorRequests : Prop :=
  ∀ (s : State) (p : List Byte),
    (
      let n := byteAt p 0
      let place := s.lbi.unreservedFree = true
      let claimPlace := s.lbi.waitsFor n = true ∨ s.lbi.unreservedFree = true
      (Requested s .zero p →
        (2147483647 < field p 0 4 → exec .zero s = .next (s.answer .zero .range).driven) ∧
        (field p 0 4 ≤ 2147483647 → ¬ place → exec .zero s = .next (s.answer .zero .busy).driven) ∧
        (field p 0 4 ≤ 2147483647 → place → s.lbi.accepts = true → exec .zero s = .next
          ((s.withLbi { s.lbi with urgent := s.lbi.urgent ++
            [.zero (BitVec.ofNat 32 (field p 0 4)) s.cfg.path] }).answer .zero .ok).driven)) ∧
      (Requested s .dismiss p →
        ((n = 0 ∨ 24 < n ∨ n = s.cfg.station) → exec .dismiss s = .next (s.answer .dismiss .range).driven) ∧
        (1 ≤ n → n ≤ 24 → n ≠ s.cfg.station →
          (¬ place → exec .dismiss s = .next (s.answer .dismiss .busy).driven) ∧
          (place → s.lbi.accepts = true → exec .dismiss s = .next
            ((s.withLbi { s.lbi with urgent := s.lbi.urgent ++ [.dismiss n] }).answer .dismiss .ok
              [BitVec.ofNat 8 (s.htu.table.filter (fun r => r.origin == n && r.stale)).length]).driven))) ∧
      (Requested s .hold p →
        (2 < n → exec .hold s = .next (s.answer .hold .range).driven) ∧
        (n ≤ 2 →
          (s.holdsClaim n = true → exec .hold s = .next (s.answer .hold .inuse).driven) ∧
          (s.holdsClaim n = false → ¬ claimPlace → exec .hold s = .next (s.answer .hold .busy).driven) ∧
          (s.holdsClaim n = false → claimPlace → exec .hold s = .next
            ((s.makeClaim n .operator none).answer .hold .ok).driven ∧
            (s.makeClaim n .operator none).holdsFor n .operator = true ∧
            (s.lbi.accepts = true → .hold n .operator none ∈ (s.makeClaim n .operator none).lbi.urgent)))) ∧
      (Requested s .release p →
        (3 < n → exec .release s = .next (s.answer .release .range).driven) ∧
        (n ≤ 3 →
          (s.holdsClaim n = false → exec .release s = .next (s.answer .release .nosuch).driven) ∧
          (s.holdsClaim n = true → n = 3 → s.holdsFor 3 .sight = false →
            exec .release s = .next (s.answer .release .state).driven) ∧
          (s.holdsClaim n = true → (n = 3 → s.holdsFor 3 .sight = true) →
            (¬ claimPlace → exec .release s = .next (s.answer .release .busy).driven) ∧
            (claimPlace → ∃ u : State, exec .release s = .next u.driven ∧
              u = ((((s.withHtu u.htu).withLbi u.lbi).withScu { s.scu with
                misses := if n = 3 then 0 else s.scu.misses }).answer .release .ok) ∧
              (∀ r, r ∈ u.htu.table ↔ r ∈ s.htu.table ∧ ¬ (r.origin = s.cfg.station ∧ r.claim = n)) ∧
              u.htu = { s.htu with table := u.htu.table, tail := u.htu.tail } ∧
              u.htu.tail = (if ∃ r ∈ u.htu.table, r.origin = s.cfg.station then s.htu.tail else 3) ∧
              (s.lbi.accepts = true → .release n ∈ u.lbi.urgent))))))

/-- The roll map's requests, answered STATE where the roll map is not enabled. CUTOVER AT plans a cut ahead, CUTOVER
NOW closes the current set at the coordinate with what follows a close (O27), CANCEL CUTOVER withdraws a planned cut,
READ ROLL reads a closed set, in the records of section 10.4, or leaves a read pending, and FREE ROLL removes a closed
set. Which of the two CUTOVER commands takes a request is the model's choice (log 11), and so is that the first
response of a closed set gives read as yes (log 32), and what a number that several sets carry names: READ ROLL gives
the oldest closed set and marks each of them read, and FREE ROLL removes each (log 34). -/
def Obligations.RollMapRequests : Prop :=
  ∀ (s : State) (p : List Byte),
    (s.cfg.rollMap = false →
      (Requested s .cutover p →
        (byteAt p 0 ≠ 1 → exec .cutoverAt s = .next (s.answer .cutover .state).driven) ∧
        (byteAt p 0 = 1 → exec .cutoverNow s = .next (s.answer .cutover .state).driven)) ∧
      (Requested s .cancelCutover p → exec .cancelCutover s = .next (s.answer .cancelCutover .state).driven) ∧
      (Requested s .readRoll p → exec .readRoll s = .next (s.answer .readRoll .state).driven) ∧
      (Requested s .freeRoll p → exec .freeRoll s = .next (s.answer .freeRoll .state).driven)) ∧
    (Requested s .cutover p → ∀ cur, s.cfg.rollMap = true → s.rmu.current = some cur →
      (1 < byteAt p 0 → exec .cutoverAt s = .next (s.answer .cutover .range).driven) ∧
      (byteAt p 0 = 0 →
        (
          let x : Coord := BitVec.ofNat 32 (field p 1 4)
          (cur.cut ≠ none → exec .cutoverAt s = .next (s.answer .cutover .busy).driven) ∧
          (cur.cut = none → (before s.lcu.coord x = false ∨ before cur.start x = false) →
            exec .cutoverAt s = .next (s.answer .cutover .range).driven) ∧
          (cur.cut = none → before s.lcu.coord x = true → before cur.start x = true →
            exec .cutoverAt s = .next ((s.withRmu { s.rmu with
              current := some { cur with cut := some x }
              next := some ⟨s.rmu.nextSet, x, none, none, false, decide (s.stc.station = .desync), false, 0, []⟩
              nextSet := if s.rmu.nextSet < 65535 then s.rmu.nextSet + 1 else 1 }).answer .cutover .ok
                (bytesBE 2 cur.number ++ bytesBE 2 s.rmu.nextSet)).driven))) ∧
      (byteAt p 0 = 1 →
        (cur.cut ≠ none → exec .cutoverNow s = .next (s.answer .cutover .busy).driven) ∧
        (cur.cut = none → before cur.start s.lcu.coord = false →
          exec .cutoverNow s = .next (s.answer .cutover .range).driven) ∧
        (cur.cut = none → before cur.start s.lcu.coord = true → s.stc.station = .active → s.lbi.normalFree = false →
          exec .cutoverNow s = .next (s.answer .cutover .busy).driven) ∧
        (cur.cut = none → before cur.start s.lcu.coord = true →
          (s.stc.station = .active → s.lbi.normalFree = true) →
          ∃ (u : State) (fol : RollSet) (c : ClosedSet), exec .cutoverNow s = .next u.driven ∧
            u.lpt.slot = .ready ⟨0x30, .ok, bytesBE 2 cur.number ++ bytesBE 2 s.rmu.nextSet⟩ ∧
            u = ((s.withRmu { s.rmu with
              nextSet := if s.rmu.nextSet < 65535 then s.rmu.nextSet + 1 else 1 }).closeSet cur
                ⟨s.rmu.nextSet, s.lcu.coord, none, none, false, decide (s.stc.station = .desync), false, 0, []⟩
                s.lcu.coord true).answer .cutover .ok (bytesBE 2 cur.number ++ bytesBE 2 s.rmu.nextSet) ∧
            u.rmu.current = some fol ∧ fol.number = s.rmu.nextSet ∧ fol.start = s.lcu.coord ∧ fol.cut = none ∧
            u.rmu.next = none ∧ c ∈ u.rmu.closed ∧ c.set.number = cur.number ∧ c.set.cut = some s.lcu.coord ∧
            c.endLength = (s.lcu.coord - cur.start).toNat ∧ u.lcu = s.lcu ∧ SameStation s.stc u.stc))) ∧
    (Requested s .cancelCutover p → s.cfg.rollMap = true → ∀ cur, s.rmu.current = some cur →
      (cur.cut = none → exec .cancelCutover s = .next (s.answer .cancelCutover .state).driven) ∧
      (∀ nxt, cur.cut ≠ none → s.rmu.next = some nxt →
        ∃ (u : State) (merged : RollSet), exec .cancelCutover s = .next u.driven ∧
          u.lpt.slot = .ready ⟨0x31, .ok, bytesBE 2 nxt.number⟩ ∧ u.rmu.current = some merged ∧
          merged.number = cur.number ∧ merged.start = cur.start ∧ merged.cut = none ∧ merged.followed = none ∧
          u.rmu.next = none ∧ u.rmu.nextSet = nxt.number ∧ u.rmu.closed = s.rmu.closed ∧
          u.lbi = s.lbi ∧ u.lcu = s.lcu ∧ u.mke = s.mke ∧ u.stc = s.stc)) ∧
    (Requested s .readRoll p → s.cfg.rollMap = true →
      (
        let n := field p 0 2
        let first := byteAt p 2
        let count := byteAt p 3
        let byte := fun (n : Nat) => BitVec.ofNat 8 n
        let bit := fun (i : Nat) (x : Bool) => if x then 2 ^ i else 0
        let sent : Announcement → Nat := fun a => match a with
          | .none => 0
          | .queued => 1
          | .sent => 2
          | .notSent => 3
        let header := fun (c : ClosedSet) =>
          bytesBE 2 c.set.number ++ [byte (3 + 4 * sent c.announcement + 16), byte (bit 0 c.set.overflow
            + bit 1 c.set.uncertain + bit 2 c.set.interrupted + bit 3 c.set.followed.isSome)]
            ++ bytesBE 4 c.set.start.toNat ++ bytesBE 4 (c.set.cut.getD 0).toNat ++ bytesBE 4 c.endLength ++ [c.epoch]
            ++ bytesBE 2 c.set.dropped ++ [byte ((c.set.followed.map Prod.fst).getD 0)]
            ++ bytesBE 2 ((c.set.followed.map Prod.snd).getD 0) ++ bytesBE 2 c.set.entries.length
        let entry := fun (c : ClosedSet) (x : RollEntry) =>
          [byte ((x.mark.map Prod.fst).getD 0)] ++ bytesBE 2 ((x.mark.map Prod.snd).getD 0).toNat
            ++ [byte (x.kind.val + bit 3 x.late + bit 4 x.splitTail + bit 5 x.splitHead + bit 6 x.blind)]
            ++ bytesBE 2 x.lanes.toNat ++ bytesBE 4 x.position ++ bytesBE 2 x.extent
            ++ bytesBE 4 (c.endLength - x.position - x.extent)
        ((count = 0 ∨ 8 < count) → exec .readRoll s = .next (s.answer .readRoll .range).driven) ∧
        (1 ≤ count → count ≤ 8 →
          (∀ c, s.rmu.closed.find? (fun x => x.set.number == n) = some c →
            exec .readRoll s = .next ((s.withRmu { s.rmu with
              closed := s.rmu.closed.map (fun x => if x.set.number = c.set.number then { x with read := true } else x)
              pendingRead := s.rmu.pendingRead.filter (fun r => r.1 != c.set.number) }).answer .readRoll .ok
                (header c ++ ((c.set.entries.drop first).take count).flatMap (entry c))).driven ∧
              (header c).length = 24 ∧ ∀ x, (entry c x).length = 16) ∧
          (∀ cur, (∀ c ∈ s.rmu.closed, c.set.number ≠ n) → cur.number = n →
            (s.rmu.current = some cur ∨
              (s.rmu.next = some cur ∧ ∀ c, s.rmu.current = some c → c.number ≠ n)) →
            (∀ m t, s.rmu.pendingRead = some (m, t) → m ≠ n →
              exec .readRoll s = .next (s.answer .readRoll .retry (bytesBE 2 m)).driven) ∧
            ((∀ m t, s.rmu.pendingRead = some (m, t) → m = n) →
              exec .readRoll s = .next ((s.withRmu { s.rmu with
                pendingRead := some (n, s.stc.now + BitVec.ofNat 32 s.cfg.discardInterval) }).answer .readRoll
                  .pending (bytesBE 2 n ++ [if cur.cut.isSome then 2 else 1])).driven)) ∧
          ((∀ c ∈ s.rmu.closed, c.set.number ≠ n) → (∀ c, s.rmu.current = some c → c.number ≠ n) →
            (∀ c, s.rmu.next = some c → c.number ≠ n) →
            exec .readRoll s = .next ((s.withRmu { s.rmu with
              pendingRead := s.rmu.pendingRead.filter (fun r => r.1 != n) }).answer .readRoll .nosuch).driven)))) ∧
    (Requested s .freeRoll p → s.cfg.rollMap = true →
      (
        let n := field p 0 2
        let open' := (∃ c, s.rmu.current = some c ∧ c.number = n) ∨ (∃ c, s.rmu.next = some c ∧ c.number = n)
        (open' → exec .freeRoll s = .next (s.answer .freeRoll .state).driven) ∧
        (¬ open' → (∀ c ∈ s.rmu.closed, c.set.number ≠ n) →
          exec .freeRoll s = .next (s.answer .freeRoll .nosuch).driven) ∧
        (¬ open' → (∃ c ∈ s.rmu.closed, c.set.number = n) →
          exec .freeRoll s = .next ((s.withRmu { s.rmu with
            closed := s.rmu.closed.filter (fun c => c.set.number != n)
            pendingRead := s.rmu.pendingRead.filter (fun r => r.1 != n) }).answer .freeRoll .ok).driven)))

/-- A request whose code is unknown is answered UNDEFINED with four bytes FFh. Any other that the station state does
not admit is answered STATE, or LOCKED for CONFIGURE, and one of a wrong length RANGE, with field index 0 for
CONFIGURE; nothing else changes. The states that refuse each request are those of R166. -/
def Obligations.RequestsRefusedBeforeTheirBlock : Prop :=
  (∀ (s : State) (code : Byte) (p : List Byte), s.live = true → s.lpt.slot = .preparing code p →
    (
      let answered := fun (status : Status) (payload : List Byte) =>
        s.withLpt { s.lpt with slot := .ready ⟨code, status, payload⟩ }
      ((code = 0 ∨ (0x06#8 ≤ code ∧ code ≤ 0x0F) ∨ (0x12#8 ≤ code ∧ code ≤ 0x17) ∨ (0x19#8 ≤ code ∧ code ≤ 0x1F) ∨
          (0x24#8 ≤ code ∧ code ≤ 0x2F) ∨ 0x34#8 ≤ code) →
        exec .undefined s = .next (answered .undefined [0xFF, 0xFF, 0xFF, 0xFF]).driven) ∧
      (∀ r ∈ Request.list, code = r.code →
        (∀ status, r.refusal s.stc.station = some status →
          exec (r.command p) s = .next (answered status []).driven) ∧
        (r.refusal s.stc.station = none → p.length ≠ r.length →
          exec (r.command p) s = .next (answered .range (if r = .configure then [0, 0] else [])).driven)))) ∧
  Request.list.map (fun r => (r.code, r.length)) =
    [(0x01, 369), (0x02, 0), (0x03, 0), (0x04, 0), (0x05, 1), (0x10, 2), (0x11, 14), (0x18, 4), (0x20, 2), (0x21, 1),
      (0x22, 1), (0x23, 1), (0x30, 5), (0x31, 0), (0x32, 4), (0x33, 2)] ∧
  [Status.ok, .pending, .retry, .busy, .state, .range, .order, .locked, .inuse, .nosuch, .badframe, .notready,
    .undefined, .none].map Status.code = List.range 14 ∧
  (∀ (r : Request) (st : StationState), r.refusal st =
    match r with
    | .configure => if st = .unconfigured then none else if st = .silent then some .state else some .locked
    | .readState | .readCounters | .takeNotices => none
    | .readHolds => if st = .unconfigured then some .state else none
    | _ => if st = .unconfigured ∨ st = .silent then some .state else none)

end
end

