-- ==== Sys2Proof/Laws/State.lean ====
section
/-! SUPPORT. Reading a block of the state after replacing one: one lemma for each block and each replacement. -/

namespace Sys2Proof.Machine

/-! ### After `withLcu` -/

@[simp] theorem State.lcu_withLcu (s : State) (x : Lcu) : (s.withLcu x).lcu = x := rfl
@[simp] theorem State.mke_withLcu (s : State) (x : Lcu) : (s.withLcu x).mke = s.mke := rfl
@[simp] theorem State.aou_withLcu (s : State) (x : Lcu) : (s.withLcu x).aou = s.aou := rfl
@[simp] theorem State.scu_withLcu (s : State) (x : Lcu) : (s.withLcu x).scu = s.scu := rfl
@[simp] theorem State.htu_withLcu (s : State) (x : Lcu) : (s.withLcu x).htu = s.htu := rfl
@[simp] theorem State.rmu_withLcu (s : State) (x : Lcu) : (s.withLcu x).rmu = s.rmu := rfl
@[simp] theorem State.lbi_withLcu (s : State) (x : Lcu) : (s.withLcu x).lbi = s.lbi := rfl
@[simp] theorem State.stc_withLcu (s : State) (x : Lcu) : (s.withLcu x).stc = s.stc := rfl
@[simp] theorem State.lpt_withLcu (s : State) (x : Lcu) : (s.withLcu x).lpt = s.lpt := rfl
@[simp] theorem State.pins_withLcu (s : State) (x : Lcu) : (s.withLcu x).pins = s.pins := rfl
@[simp] theorem State.pending_withLcu (s : State) (x : Lcu) : (s.withLcu x).pending = s.pending := rfl
@[simp] theorem State.withLcu_withLcu (s : State) (x y : Lcu) : (s.withLcu x).withLcu y = s.withLcu y := rfl

/-! ### After `withMke` -/

@[simp] theorem State.lcu_withMke (s : State) (x : Mke) : (s.withMke x).lcu = s.lcu := rfl
@[simp] theorem State.mke_withMke (s : State) (x : Mke) : (s.withMke x).mke = x := rfl
@[simp] theorem State.aou_withMke (s : State) (x : Mke) : (s.withMke x).aou = s.aou := rfl
@[simp] theorem State.scu_withMke (s : State) (x : Mke) : (s.withMke x).scu = s.scu := rfl
@[simp] theorem State.htu_withMke (s : State) (x : Mke) : (s.withMke x).htu = s.htu := rfl
@[simp] theorem State.rmu_withMke (s : State) (x : Mke) : (s.withMke x).rmu = s.rmu := rfl
@[simp] theorem State.lbi_withMke (s : State) (x : Mke) : (s.withMke x).lbi = s.lbi := rfl
@[simp] theorem State.stc_withMke (s : State) (x : Mke) : (s.withMke x).stc = s.stc := rfl
@[simp] theorem State.lpt_withMke (s : State) (x : Mke) : (s.withMke x).lpt = s.lpt := rfl
@[simp] theorem State.pins_withMke (s : State) (x : Mke) : (s.withMke x).pins = s.pins := rfl
@[simp] theorem State.pending_withMke (s : State) (x : Mke) : (s.withMke x).pending = s.pending := rfl
@[simp] theorem State.withMke_withMke (s : State) (x y : Mke) : (s.withMke x).withMke y = s.withMke y := rfl

/-! ### After `withAou` -/

@[simp] theorem State.lcu_withAou (s : State) (x : Aou) : (s.withAou x).lcu = s.lcu := rfl
@[simp] theorem State.mke_withAou (s : State) (x : Aou) : (s.withAou x).mke = s.mke := rfl
@[simp] theorem State.aou_withAou (s : State) (x : Aou) : (s.withAou x).aou = x := rfl
@[simp] theorem State.scu_withAou (s : State) (x : Aou) : (s.withAou x).scu = s.scu := rfl
@[simp] theorem State.htu_withAou (s : State) (x : Aou) : (s.withAou x).htu = s.htu := rfl
@[simp] theorem State.rmu_withAou (s : State) (x : Aou) : (s.withAou x).rmu = s.rmu := rfl
@[simp] theorem State.lbi_withAou (s : State) (x : Aou) : (s.withAou x).lbi = s.lbi := rfl
@[simp] theorem State.stc_withAou (s : State) (x : Aou) : (s.withAou x).stc = s.stc := rfl
@[simp] theorem State.lpt_withAou (s : State) (x : Aou) : (s.withAou x).lpt = s.lpt := rfl
@[simp] theorem State.pins_withAou (s : State) (x : Aou) : (s.withAou x).pins = s.pins := rfl
@[simp] theorem State.pending_withAou (s : State) (x : Aou) : (s.withAou x).pending = s.pending := rfl
@[simp] theorem State.withAou_withAou (s : State) (x y : Aou) : (s.withAou x).withAou y = s.withAou y := rfl

/-! ### After `withScu` -/

@[simp] theorem State.lcu_withScu (s : State) (x : Scu) : (s.withScu x).lcu = s.lcu := rfl
@[simp] theorem State.mke_withScu (s : State) (x : Scu) : (s.withScu x).mke = s.mke := rfl
@[simp] theorem State.aou_withScu (s : State) (x : Scu) : (s.withScu x).aou = s.aou := rfl
@[simp] theorem State.scu_withScu (s : State) (x : Scu) : (s.withScu x).scu = x := rfl
@[simp] theorem State.htu_withScu (s : State) (x : Scu) : (s.withScu x).htu = s.htu := rfl
@[simp] theorem State.rmu_withScu (s : State) (x : Scu) : (s.withScu x).rmu = s.rmu := rfl
@[simp] theorem State.lbi_withScu (s : State) (x : Scu) : (s.withScu x).lbi = s.lbi := rfl
@[simp] theorem State.stc_withScu (s : State) (x : Scu) : (s.withScu x).stc = s.stc := rfl
@[simp] theorem State.lpt_withScu (s : State) (x : Scu) : (s.withScu x).lpt = s.lpt := rfl
@[simp] theorem State.pins_withScu (s : State) (x : Scu) : (s.withScu x).pins = s.pins := rfl
@[simp] theorem State.pending_withScu (s : State) (x : Scu) : (s.withScu x).pending = s.pending := rfl
@[simp] theorem State.withScu_withScu (s : State) (x y : Scu) : (s.withScu x).withScu y = s.withScu y := rfl

/-! ### After `withHtu` -/

@[simp] theorem State.lcu_withHtu (s : State) (x : Htu) : (s.withHtu x).lcu = s.lcu := rfl
@[simp] theorem State.mke_withHtu (s : State) (x : Htu) : (s.withHtu x).mke = s.mke := rfl
@[simp] theorem State.aou_withHtu (s : State) (x : Htu) : (s.withHtu x).aou = s.aou := rfl
@[simp] theorem State.scu_withHtu (s : State) (x : Htu) : (s.withHtu x).scu = s.scu := rfl
@[simp] theorem State.htu_withHtu (s : State) (x : Htu) : (s.withHtu x).htu = x := rfl
@[simp] theorem State.rmu_withHtu (s : State) (x : Htu) : (s.withHtu x).rmu = s.rmu := rfl
@[simp] theorem State.lbi_withHtu (s : State) (x : Htu) : (s.withHtu x).lbi = s.lbi := rfl
@[simp] theorem State.stc_withHtu (s : State) (x : Htu) : (s.withHtu x).stc = s.stc := rfl
@[simp] theorem State.lpt_withHtu (s : State) (x : Htu) : (s.withHtu x).lpt = s.lpt := rfl
@[simp] theorem State.pins_withHtu (s : State) (x : Htu) : (s.withHtu x).pins = s.pins := rfl
@[simp] theorem State.pending_withHtu (s : State) (x : Htu) : (s.withHtu x).pending = s.pending := rfl
@[simp] theorem State.withHtu_withHtu (s : State) (x y : Htu) : (s.withHtu x).withHtu y = s.withHtu y := rfl

/-! ### After `withRmu` -/

@[simp] theorem State.lcu_withRmu (s : State) (x : Rmu) : (s.withRmu x).lcu = s.lcu := rfl
@[simp] theorem State.mke_withRmu (s : State) (x : Rmu) : (s.withRmu x).mke = s.mke := rfl
@[simp] theorem State.aou_withRmu (s : State) (x : Rmu) : (s.withRmu x).aou = s.aou := rfl
@[simp] theorem State.scu_withRmu (s : State) (x : Rmu) : (s.withRmu x).scu = s.scu := rfl
@[simp] theorem State.htu_withRmu (s : State) (x : Rmu) : (s.withRmu x).htu = s.htu := rfl
@[simp] theorem State.rmu_withRmu (s : State) (x : Rmu) : (s.withRmu x).rmu = x := rfl
@[simp] theorem State.lbi_withRmu (s : State) (x : Rmu) : (s.withRmu x).lbi = s.lbi := rfl
@[simp] theorem State.stc_withRmu (s : State) (x : Rmu) : (s.withRmu x).stc = s.stc := rfl
@[simp] theorem State.lpt_withRmu (s : State) (x : Rmu) : (s.withRmu x).lpt = s.lpt := rfl
@[simp] theorem State.pins_withRmu (s : State) (x : Rmu) : (s.withRmu x).pins = s.pins := rfl
@[simp] theorem State.pending_withRmu (s : State) (x : Rmu) : (s.withRmu x).pending = s.pending := rfl
@[simp] theorem State.withRmu_withRmu (s : State) (x y : Rmu) : (s.withRmu x).withRmu y = s.withRmu y := rfl

/-! ### After `withLbi` -/

@[simp] theorem State.lcu_withLbi (s : State) (x : Lbi) : (s.withLbi x).lcu = s.lcu := rfl
@[simp] theorem State.mke_withLbi (s : State) (x : Lbi) : (s.withLbi x).mke = s.mke := rfl
@[simp] theorem State.aou_withLbi (s : State) (x : Lbi) : (s.withLbi x).aou = s.aou := rfl
@[simp] theorem State.scu_withLbi (s : State) (x : Lbi) : (s.withLbi x).scu = s.scu := rfl
@[simp] theorem State.htu_withLbi (s : State) (x : Lbi) : (s.withLbi x).htu = s.htu := rfl
@[simp] theorem State.rmu_withLbi (s : State) (x : Lbi) : (s.withLbi x).rmu = s.rmu := rfl
@[simp] theorem State.lbi_withLbi (s : State) (x : Lbi) : (s.withLbi x).lbi = x := rfl
@[simp] theorem State.stc_withLbi (s : State) (x : Lbi) : (s.withLbi x).stc = s.stc := rfl
@[simp] theorem State.lpt_withLbi (s : State) (x : Lbi) : (s.withLbi x).lpt = s.lpt := rfl
@[simp] theorem State.pins_withLbi (s : State) (x : Lbi) : (s.withLbi x).pins = s.pins := rfl
@[simp] theorem State.pending_withLbi (s : State) (x : Lbi) : (s.withLbi x).pending = s.pending := rfl
@[simp] theorem State.withLbi_withLbi (s : State) (x y : Lbi) : (s.withLbi x).withLbi y = s.withLbi y := rfl

/-! ### After `withStc` -/

@[simp] theorem State.lcu_withStc (s : State) (x : Stc) : (s.withStc x).lcu = s.lcu := rfl
@[simp] theorem State.mke_withStc (s : State) (x : Stc) : (s.withStc x).mke = s.mke := rfl
@[simp] theorem State.aou_withStc (s : State) (x : Stc) : (s.withStc x).aou = s.aou := rfl
@[simp] theorem State.scu_withStc (s : State) (x : Stc) : (s.withStc x).scu = s.scu := rfl
@[simp] theorem State.htu_withStc (s : State) (x : Stc) : (s.withStc x).htu = s.htu := rfl
@[simp] theorem State.rmu_withStc (s : State) (x : Stc) : (s.withStc x).rmu = s.rmu := rfl
@[simp] theorem State.lbi_withStc (s : State) (x : Stc) : (s.withStc x).lbi = s.lbi := rfl
@[simp] theorem State.stc_withStc (s : State) (x : Stc) : (s.withStc x).stc = x := rfl
@[simp] theorem State.lpt_withStc (s : State) (x : Stc) : (s.withStc x).lpt = s.lpt := rfl
@[simp] theorem State.pins_withStc (s : State) (x : Stc) : (s.withStc x).pins = s.pins := rfl
@[simp] theorem State.pending_withStc (s : State) (x : Stc) : (s.withStc x).pending = s.pending := rfl
@[simp] theorem State.withStc_withStc (s : State) (x y : Stc) : (s.withStc x).withStc y = s.withStc y := rfl

/-! ### After `withLpt` -/

@[simp] theorem State.lcu_withLpt (s : State) (x : Lpt) : (s.withLpt x).lcu = s.lcu := rfl
@[simp] theorem State.mke_withLpt (s : State) (x : Lpt) : (s.withLpt x).mke = s.mke := rfl
@[simp] theorem State.aou_withLpt (s : State) (x : Lpt) : (s.withLpt x).aou = s.aou := rfl
@[simp] theorem State.scu_withLpt (s : State) (x : Lpt) : (s.withLpt x).scu = s.scu := rfl
@[simp] theorem State.htu_withLpt (s : State) (x : Lpt) : (s.withLpt x).htu = s.htu := rfl
@[simp] theorem State.rmu_withLpt (s : State) (x : Lpt) : (s.withLpt x).rmu = s.rmu := rfl
@[simp] theorem State.lbi_withLpt (s : State) (x : Lpt) : (s.withLpt x).lbi = s.lbi := rfl
@[simp] theorem State.stc_withLpt (s : State) (x : Lpt) : (s.withLpt x).stc = s.stc := rfl
@[simp] theorem State.lpt_withLpt (s : State) (x : Lpt) : (s.withLpt x).lpt = x := rfl
@[simp] theorem State.pins_withLpt (s : State) (x : Lpt) : (s.withLpt x).pins = s.pins := rfl
@[simp] theorem State.pending_withLpt (s : State) (x : Lpt) : (s.withLpt x).pending = s.pending := rfl
@[simp] theorem State.withLpt_withLpt (s : State) (x y : Lpt) : (s.withLpt x).withLpt y = s.withLpt y := rfl

/-! ### After `withPins` -/

@[simp] theorem State.lcu_withPins (s : State) (x : Pins) : (s.withPins x).lcu = s.lcu := rfl
@[simp] theorem State.mke_withPins (s : State) (x : Pins) : (s.withPins x).mke = s.mke := rfl
@[simp] theorem State.aou_withPins (s : State) (x : Pins) : (s.withPins x).aou = s.aou := rfl
@[simp] theorem State.scu_withPins (s : State) (x : Pins) : (s.withPins x).scu = s.scu := rfl
@[simp] theorem State.htu_withPins (s : State) (x : Pins) : (s.withPins x).htu = s.htu := rfl
@[simp] theorem State.rmu_withPins (s : State) (x : Pins) : (s.withPins x).rmu = s.rmu := rfl
@[simp] theorem State.lbi_withPins (s : State) (x : Pins) : (s.withPins x).lbi = s.lbi := rfl
@[simp] theorem State.stc_withPins (s : State) (x : Pins) : (s.withPins x).stc = s.stc := rfl
@[simp] theorem State.lpt_withPins (s : State) (x : Pins) : (s.withPins x).lpt = s.lpt := rfl
@[simp] theorem State.pins_withPins (s : State) (x : Pins) : (s.withPins x).pins = x := rfl
@[simp] theorem State.pending_withPins (s : State) (x : Pins) : (s.withPins x).pending = s.pending := rfl
@[simp] theorem State.withPins_withPins (s : State) (x y : Pins) : (s.withPins x).withPins y = s.withPins y := rfl

/-! ### After `withPending` -/

@[simp] theorem State.lcu_withPending (s : State) (x : List Instr) : (s.withPending x).lcu = s.lcu := rfl
@[simp] theorem State.mke_withPending (s : State) (x : List Instr) : (s.withPending x).mke = s.mke := rfl
@[simp] theorem State.aou_withPending (s : State) (x : List Instr) : (s.withPending x).aou = s.aou := rfl
@[simp] theorem State.scu_withPending (s : State) (x : List Instr) : (s.withPending x).scu = s.scu := rfl
@[simp] theorem State.htu_withPending (s : State) (x : List Instr) : (s.withPending x).htu = s.htu := rfl
@[simp] theorem State.rmu_withPending (s : State) (x : List Instr) : (s.withPending x).rmu = s.rmu := rfl
@[simp] theorem State.lbi_withPending (s : State) (x : List Instr) : (s.withPending x).lbi = s.lbi := rfl
@[simp] theorem State.stc_withPending (s : State) (x : List Instr) : (s.withPending x).stc = s.stc := rfl
@[simp] theorem State.lpt_withPending (s : State) (x : List Instr) : (s.withPending x).lpt = s.lpt := rfl
@[simp] theorem State.pins_withPending (s : State) (x : List Instr) : (s.withPending x).pins = s.pins := rfl
@[simp] theorem State.pending_withPending (s : State) (x : List Instr) : (s.withPending x).pending = x := rfl
@[simp] theorem State.withPending_withPending (s : State) (x y : List Instr) : (s.withPending x).withPending y = s.withPending y := rfl

end Sys2Proof.Machine
end

