-- ==== Sys2Proof/Laws/Reads.lean ====
section
/-! SUPPORT. What each simple operation leaves unchanged: one lemma for each operation and each block it does not
touch. -/

namespace Sys2Proof.Machine

/-! ### `notice` -/

@[simp] theorem State.lcu_notice (s : State) (k : NoticeKind) (o : Option Nat) (n : Option MarkNo) (v : Option (BitVec 32)) :
    (s.notice k o n v).lcu = s.lcu := rfl
@[simp] theorem State.mke_notice (s : State) (k : NoticeKind) (o : Option Nat) (n : Option MarkNo) (v : Option (BitVec 32)) :
    (s.notice k o n v).mke = s.mke := rfl
@[simp] theorem State.aou_notice (s : State) (k : NoticeKind) (o : Option Nat) (n : Option MarkNo) (v : Option (BitVec 32)) :
    (s.notice k o n v).aou = s.aou := rfl
@[simp] theorem State.scu_notice (s : State) (k : NoticeKind) (o : Option Nat) (n : Option MarkNo) (v : Option (BitVec 32)) :
    (s.notice k o n v).scu = s.scu := rfl
@[simp] theorem State.htu_notice (s : State) (k : NoticeKind) (o : Option Nat) (n : Option MarkNo) (v : Option (BitVec 32)) :
    (s.notice k o n v).htu = s.htu := rfl
@[simp] theorem State.rmu_notice (s : State) (k : NoticeKind) (o : Option Nat) (n : Option MarkNo) (v : Option (BitVec 32)) :
    (s.notice k o n v).rmu = s.rmu := rfl
@[simp] theorem State.lbi_notice (s : State) (k : NoticeKind) (o : Option Nat) (n : Option MarkNo) (v : Option (BitVec 32)) :
    (s.notice k o n v).lbi = s.lbi := rfl
@[simp] theorem State.stc_notice (s : State) (k : NoticeKind) (o : Option Nat) (n : Option MarkNo) (v : Option (BitVec 32)) :
    (s.notice k o n v).stc = s.stc := rfl
@[simp] theorem State.pins_notice (s : State) (k : NoticeKind) (o : Option Nat) (n : Option MarkNo) (v : Option (BitVec 32)) :
    (s.notice k o n v).pins = s.pins := rfl
@[simp] theorem State.pending_notice (s : State) (k : NoticeKind) (o : Option Nat) (n : Option MarkNo) (v : Option (BitVec 32)) :
    (s.notice k o n v).pending = s.pending := rfl

/-! ### `noticeMark` -/

@[simp] theorem State.lcu_noticeMark (s : State) (k : NoticeKind) (m : Option MarkRef) (v : Option (BitVec 32)) :
    (s.noticeMark k m v).lcu = s.lcu := rfl
@[simp] theorem State.mke_noticeMark (s : State) (k : NoticeKind) (m : Option MarkRef) (v : Option (BitVec 32)) :
    (s.noticeMark k m v).mke = s.mke := rfl
@[simp] theorem State.aou_noticeMark (s : State) (k : NoticeKind) (m : Option MarkRef) (v : Option (BitVec 32)) :
    (s.noticeMark k m v).aou = s.aou := rfl
@[simp] theorem State.scu_noticeMark (s : State) (k : NoticeKind) (m : Option MarkRef) (v : Option (BitVec 32)) :
    (s.noticeMark k m v).scu = s.scu := rfl
@[simp] theorem State.htu_noticeMark (s : State) (k : NoticeKind) (m : Option MarkRef) (v : Option (BitVec 32)) :
    (s.noticeMark k m v).htu = s.htu := rfl
@[simp] theorem State.rmu_noticeMark (s : State) (k : NoticeKind) (m : Option MarkRef) (v : Option (BitVec 32)) :
    (s.noticeMark k m v).rmu = s.rmu := rfl
@[simp] theorem State.lbi_noticeMark (s : State) (k : NoticeKind) (m : Option MarkRef) (v : Option (BitVec 32)) :
    (s.noticeMark k m v).lbi = s.lbi := rfl
@[simp] theorem State.stc_noticeMark (s : State) (k : NoticeKind) (m : Option MarkRef) (v : Option (BitVec 32)) :
    (s.noticeMark k m v).stc = s.stc := rfl
@[simp] theorem State.pins_noticeMark (s : State) (k : NoticeKind) (m : Option MarkRef) (v : Option (BitVec 32)) :
    (s.noticeMark k m v).pins = s.pins := rfl
@[simp] theorem State.pending_noticeMark (s : State) (k : NoticeKind) (m : Option MarkRef) (v : Option (BitVec 32)) :
    (s.noticeMark k m v).pending = s.pending := rfl

/-! ### `count` -/

@[simp] theorem State.lcu_count (s : State) (k : CounterName) :
    (s.count k).lcu = s.lcu := rfl
@[simp] theorem State.mke_count (s : State) (k : CounterName) :
    (s.count k).mke = s.mke := rfl
@[simp] theorem State.aou_count (s : State) (k : CounterName) :
    (s.count k).aou = s.aou := rfl
@[simp] theorem State.scu_count (s : State) (k : CounterName) :
    (s.count k).scu = s.scu := rfl
@[simp] theorem State.htu_count (s : State) (k : CounterName) :
    (s.count k).htu = s.htu := rfl
@[simp] theorem State.rmu_count (s : State) (k : CounterName) :
    (s.count k).rmu = s.rmu := rfl
@[simp] theorem State.lbi_count (s : State) (k : CounterName) :
    (s.count k).lbi = s.lbi := rfl
@[simp] theorem State.lpt_count (s : State) (k : CounterName) :
    (s.count k).lpt = s.lpt := rfl
@[simp] theorem State.pins_count (s : State) (k : CounterName) :
    (s.count k).pins = s.pins := rfl
@[simp] theorem State.pending_count (s : State) (k : CounterName) :
    (s.count k).pending = s.pending := rfl

/-! ### `recordFault` -/

@[simp] theorem State.lcu_recordFault (s : State) (k : FaultKind) (o : Nat) :
    (s.recordFault k o).lcu = s.lcu := rfl
@[simp] theorem State.mke_recordFault (s : State) (k : FaultKind) (o : Nat) :
    (s.recordFault k o).mke = s.mke := rfl
@[simp] theorem State.aou_recordFault (s : State) (k : FaultKind) (o : Nat) :
    (s.recordFault k o).aou = s.aou := rfl
@[simp] theorem State.scu_recordFault (s : State) (k : FaultKind) (o : Nat) :
    (s.recordFault k o).scu = s.scu := rfl
@[simp] theorem State.htu_recordFault (s : State) (k : FaultKind) (o : Nat) :
    (s.recordFault k o).htu = s.htu := rfl
@[simp] theorem State.rmu_recordFault (s : State) (k : FaultKind) (o : Nat) :
    (s.recordFault k o).rmu = s.rmu := rfl
@[simp] theorem State.lbi_recordFault (s : State) (k : FaultKind) (o : Nat) :
    (s.recordFault k o).lbi = s.lbi := rfl
@[simp] theorem State.lpt_recordFault (s : State) (k : FaultKind) (o : Nat) :
    (s.recordFault k o).lpt = s.lpt := rfl
@[simp] theorem State.pins_recordFault (s : State) (k : FaultKind) (o : Nat) :
    (s.recordFault k o).pins = s.pins := rfl
@[simp] theorem State.pending_recordFault (s : State) (k : FaultKind) (o : Nat) :
    (s.recordFault k o).pending = s.pending := rfl

/-! ### `request` -/

@[simp] theorem State.lcu_request (s : State) (r : DeferredRequest) :
    (s.request r).lcu = s.lcu := rfl
@[simp] theorem State.mke_request (s : State) (r : DeferredRequest) :
    (s.request r).mke = s.mke := rfl
@[simp] theorem State.aou_request (s : State) (r : DeferredRequest) :
    (s.request r).aou = s.aou := rfl
@[simp] theorem State.scu_request (s : State) (r : DeferredRequest) :
    (s.request r).scu = s.scu := rfl
@[simp] theorem State.htu_request (s : State) (r : DeferredRequest) :
    (s.request r).htu = s.htu := rfl
@[simp] theorem State.rmu_request (s : State) (r : DeferredRequest) :
    (s.request r).rmu = s.rmu := rfl
@[simp] theorem State.stc_request (s : State) (r : DeferredRequest) :
    (s.request r).stc = s.stc := rfl
@[simp] theorem State.lpt_request (s : State) (r : DeferredRequest) :
    (s.request r).lpt = s.lpt := rfl
@[simp] theorem State.pins_request (s : State) (r : DeferredRequest) :
    (s.request r).pins = s.pins := rfl
@[simp] theorem State.pending_request (s : State) (r : DeferredRequest) :
    (s.request r).pending = s.pending := rfl

/-! ### `makeClaim` -/

@[simp] theorem State.lcu_makeClaim (s : State) (n : Nat) (k : Reason) (m : Option MarkRef) :
    (s.makeClaim n k m).lcu = s.lcu := rfl
@[simp] theorem State.mke_makeClaim (s : State) (n : Nat) (k : Reason) (m : Option MarkRef) :
    (s.makeClaim n k m).mke = s.mke := rfl
@[simp] theorem State.aou_makeClaim (s : State) (n : Nat) (k : Reason) (m : Option MarkRef) :
    (s.makeClaim n k m).aou = s.aou := rfl
@[simp] theorem State.scu_makeClaim (s : State) (n : Nat) (k : Reason) (m : Option MarkRef) :
    (s.makeClaim n k m).scu = s.scu := rfl
@[simp] theorem State.rmu_makeClaim (s : State) (n : Nat) (k : Reason) (m : Option MarkRef) :
    (s.makeClaim n k m).rmu = s.rmu := rfl
@[simp] theorem State.stc_makeClaim (s : State) (n : Nat) (k : Reason) (m : Option MarkRef) :
    (s.makeClaim n k m).stc = s.stc := rfl
@[simp] theorem State.lpt_makeClaim (s : State) (n : Nat) (k : Reason) (m : Option MarkRef) :
    (s.makeClaim n k m).lpt = s.lpt := rfl
@[simp] theorem State.pins_makeClaim (s : State) (n : Nat) (k : Reason) (m : Option MarkRef) :
    (s.makeClaim n k m).pins = s.pins := rfl
@[simp] theorem State.pending_makeClaim (s : State) (n : Nat) (k : Reason) (m : Option MarkRef) :
    (s.makeClaim n k m).pending = s.pending := rfl

/-! ### `releaseClaim` -/

@[simp] theorem State.lcu_releaseClaim (s : State) (n : Nat) :
    (s.releaseClaim n).lcu = s.lcu := by unfold State.releaseClaim; split <;> rfl
@[simp] theorem State.mke_releaseClaim (s : State) (n : Nat) :
    (s.releaseClaim n).mke = s.mke := by unfold State.releaseClaim; split <;> rfl
@[simp] theorem State.aou_releaseClaim (s : State) (n : Nat) :
    (s.releaseClaim n).aou = s.aou := by unfold State.releaseClaim; split <;> rfl
@[simp] theorem State.scu_releaseClaim (s : State) (n : Nat) :
    (s.releaseClaim n).scu = s.scu := by unfold State.releaseClaim; split <;> rfl
@[simp] theorem State.rmu_releaseClaim (s : State) (n : Nat) :
    (s.releaseClaim n).rmu = s.rmu := by unfold State.releaseClaim; split <;> rfl
@[simp] theorem State.stc_releaseClaim (s : State) (n : Nat) :
    (s.releaseClaim n).stc = s.stc := by unfold State.releaseClaim; split <;> rfl
@[simp] theorem State.lpt_releaseClaim (s : State) (n : Nat) :
    (s.releaseClaim n).lpt = s.lpt := by unfold State.releaseClaim; split <;> rfl
@[simp] theorem State.pins_releaseClaim (s : State) (n : Nat) :
    (s.releaseClaim n).pins = s.pins := by unfold State.releaseClaim; split <;> rfl
@[simp] theorem State.pending_releaseClaim (s : State) (n : Nat) :
    (s.releaseClaim n).pending = s.pending := by unfold State.releaseClaim; split <;> rfl

/-! ### `setAction` -/

@[simp] theorem State.lcu_setAction (s : State) (u i : Nat) (a : ActionState) :
    (s.setAction u i a).lcu = s.lcu := rfl
@[simp] theorem State.aou_setAction (s : State) (u i : Nat) (a : ActionState) :
    (s.setAction u i a).aou = s.aou := rfl
@[simp] theorem State.scu_setAction (s : State) (u i : Nat) (a : ActionState) :
    (s.setAction u i a).scu = s.scu := rfl
@[simp] theorem State.htu_setAction (s : State) (u i : Nat) (a : ActionState) :
    (s.setAction u i a).htu = s.htu := rfl
@[simp] theorem State.rmu_setAction (s : State) (u i : Nat) (a : ActionState) :
    (s.setAction u i a).rmu = s.rmu := rfl
@[simp] theorem State.lbi_setAction (s : State) (u i : Nat) (a : ActionState) :
    (s.setAction u i a).lbi = s.lbi := rfl
@[simp] theorem State.stc_setAction (s : State) (u i : Nat) (a : ActionState) :
    (s.setAction u i a).stc = s.stc := rfl
@[simp] theorem State.lpt_setAction (s : State) (u i : Nat) (a : ActionState) :
    (s.setAction u i a).lpt = s.lpt := rfl
@[simp] theorem State.pins_setAction (s : State) (u i : Nat) (a : ActionState) :
    (s.setAction u i a).pins = s.pins := rfl
@[simp] theorem State.pending_setAction (s : State) (u i : Nat) (a : ActionState) :
    (s.setAction u i a).pending = s.pending := rfl

/-! ### `examineRecord` -/

@[simp] theorem State.lcu_examineRecord (s : State) (u : Nat) :
    (s.examineRecord u).lcu = s.lcu := by unfold State.examineRecord; split <;> rfl
@[simp] theorem State.aou_examineRecord (s : State) (u : Nat) :
    (s.examineRecord u).aou = s.aou := by unfold State.examineRecord; split <;> rfl
@[simp] theorem State.scu_examineRecord (s : State) (u : Nat) :
    (s.examineRecord u).scu = s.scu := by unfold State.examineRecord; split <;> rfl
@[simp] theorem State.htu_examineRecord (s : State) (u : Nat) :
    (s.examineRecord u).htu = s.htu := by unfold State.examineRecord; split <;> rfl
@[simp] theorem State.rmu_examineRecord (s : State) (u : Nat) :
    (s.examineRecord u).rmu = s.rmu := by unfold State.examineRecord; split <;> rfl
@[simp] theorem State.lbi_examineRecord (s : State) (u : Nat) :
    (s.examineRecord u).lbi = s.lbi := by unfold State.examineRecord; split <;> rfl
@[simp] theorem State.stc_examineRecord (s : State) (u : Nat) :
    (s.examineRecord u).stc = s.stc := by unfold State.examineRecord; split <;> rfl
@[simp] theorem State.lpt_examineRecord (s : State) (u : Nat) :
    (s.examineRecord u).lpt = s.lpt := by unfold State.examineRecord; split <;> rfl
@[simp] theorem State.pins_examineRecord (s : State) (u : Nat) :
    (s.examineRecord u).pins = s.pins := by unfold State.examineRecord; split <;> rfl
@[simp] theorem State.pending_examineRecord (s : State) (u : Nat) :
    (s.examineRecord u).pending = s.pending := by unfold State.examineRecord; split <;> rfl

/-! ### `consumeNumber` -/

@[simp] theorem State.lcu_consumeNumber (s : State) (p : Coord) :
    (s.consumeNumber p).lcu = s.lcu := rfl
@[simp] theorem State.aou_consumeNumber (s : State) (p : Coord) :
    (s.consumeNumber p).aou = s.aou := rfl
@[simp] theorem State.scu_consumeNumber (s : State) (p : Coord) :
    (s.consumeNumber p).scu = s.scu := rfl
@[simp] theorem State.htu_consumeNumber (s : State) (p : Coord) :
    (s.consumeNumber p).htu = s.htu := rfl
@[simp] theorem State.rmu_consumeNumber (s : State) (p : Coord) :
    (s.consumeNumber p).rmu = s.rmu := rfl
@[simp] theorem State.lbi_consumeNumber (s : State) (p : Coord) :
    (s.consumeNumber p).lbi = s.lbi := rfl
@[simp] theorem State.stc_consumeNumber (s : State) (p : Coord) :
    (s.consumeNumber p).stc = s.stc := rfl
@[simp] theorem State.lpt_consumeNumber (s : State) (p : Coord) :
    (s.consumeNumber p).lpt = s.lpt := rfl
@[simp] theorem State.pins_consumeNumber (s : State) (p : Coord) :
    (s.consumeNumber p).pins = s.pins := rfl
@[simp] theorem State.pending_consumeNumber (s : State) (p : Coord) :
    (s.consumeNumber p).pending = s.pending := rfl

/-! ### `setOrigin` -/

@[simp] theorem State.lcu_setOrigin (s : State) (o : Nat) (e : OriginEntry) :
    (s.setOrigin o e).lcu = s.lcu := rfl
@[simp] theorem State.aou_setOrigin (s : State) (o : Nat) (e : OriginEntry) :
    (s.setOrigin o e).aou = s.aou := rfl
@[simp] theorem State.scu_setOrigin (s : State) (o : Nat) (e : OriginEntry) :
    (s.setOrigin o e).scu = s.scu := rfl
@[simp] theorem State.htu_setOrigin (s : State) (o : Nat) (e : OriginEntry) :
    (s.setOrigin o e).htu = s.htu := rfl
@[simp] theorem State.rmu_setOrigin (s : State) (o : Nat) (e : OriginEntry) :
    (s.setOrigin o e).rmu = s.rmu := rfl
@[simp] theorem State.lbi_setOrigin (s : State) (o : Nat) (e : OriginEntry) :
    (s.setOrigin o e).lbi = s.lbi := rfl
@[simp] theorem State.stc_setOrigin (s : State) (o : Nat) (e : OriginEntry) :
    (s.setOrigin o e).stc = s.stc := rfl
@[simp] theorem State.lpt_setOrigin (s : State) (o : Nat) (e : OriginEntry) :
    (s.setOrigin o e).lpt = s.lpt := rfl
@[simp] theorem State.pins_setOrigin (s : State) (o : Nat) (e : OriginEntry) :
    (s.setOrigin o e).pins = s.pins := rfl
@[simp] theorem State.pending_setOrigin (s : State) (o : Nat) (e : OriginEntry) :
    (s.setOrigin o e).pending = s.pending := rfl

/-! ### `setChannel` -/

@[simp] theorem State.lcu_setChannel (s : State) (c : Fin 4) (x : ChannelState) (m : Nat) :
    (s.setChannel c x m).lcu = s.lcu := rfl
@[simp] theorem State.mke_setChannel (s : State) (c : Fin 4) (x : ChannelState) (m : Nat) :
    (s.setChannel c x m).mke = s.mke := rfl
@[simp] theorem State.scu_setChannel (s : State) (c : Fin 4) (x : ChannelState) (m : Nat) :
    (s.setChannel c x m).scu = s.scu := rfl
@[simp] theorem State.htu_setChannel (s : State) (c : Fin 4) (x : ChannelState) (m : Nat) :
    (s.setChannel c x m).htu = s.htu := rfl
@[simp] theorem State.rmu_setChannel (s : State) (c : Fin 4) (x : ChannelState) (m : Nat) :
    (s.setChannel c x m).rmu = s.rmu := rfl
@[simp] theorem State.lbi_setChannel (s : State) (c : Fin 4) (x : ChannelState) (m : Nat) :
    (s.setChannel c x m).lbi = s.lbi := rfl
@[simp] theorem State.stc_setChannel (s : State) (c : Fin 4) (x : ChannelState) (m : Nat) :
    (s.setChannel c x m).stc = s.stc := rfl
@[simp] theorem State.lpt_setChannel (s : State) (c : Fin 4) (x : ChannelState) (m : Nat) :
    (s.setChannel c x m).lpt = s.lpt := rfl
@[simp] theorem State.pins_setChannel (s : State) (c : Fin 4) (x : ChannelState) (m : Nat) :
    (s.setChannel c x m).pins = s.pins := rfl
@[simp] theorem State.pending_setChannel (s : State) (c : Fin 4) (x : ChannelState) (m : Nat) :
    (s.setChannel c x m).pending = s.pending := rfl

/-! ### `idleChannel` -/

@[simp] theorem State.lcu_idleChannel (s : State) (c : Fin 4) :
    (s.idleChannel c).lcu = s.lcu := rfl
@[simp] theorem State.mke_idleChannel (s : State) (c : Fin 4) :
    (s.idleChannel c).mke = s.mke := rfl
@[simp] theorem State.scu_idleChannel (s : State) (c : Fin 4) :
    (s.idleChannel c).scu = s.scu := rfl
@[simp] theorem State.htu_idleChannel (s : State) (c : Fin 4) :
    (s.idleChannel c).htu = s.htu := rfl
@[simp] theorem State.rmu_idleChannel (s : State) (c : Fin 4) :
    (s.idleChannel c).rmu = s.rmu := rfl
@[simp] theorem State.lbi_idleChannel (s : State) (c : Fin 4) :
    (s.idleChannel c).lbi = s.lbi := rfl
@[simp] theorem State.stc_idleChannel (s : State) (c : Fin 4) :
    (s.idleChannel c).stc = s.stc := rfl
@[simp] theorem State.lpt_idleChannel (s : State) (c : Fin 4) :
    (s.idleChannel c).lpt = s.lpt := rfl
@[simp] theorem State.pins_idleChannel (s : State) (c : Fin 4) :
    (s.idleChannel c).pins = s.pins := rfl
@[simp] theorem State.pending_idleChannel (s : State) (c : Fin 4) :
    (s.idleChannel c).pending = s.pending := rfl

/-! ### `setWindows` -/

@[simp] theorem State.lcu_setWindows (s : State) (n : Fin 4) (w : List Window) :
    (s.setWindows n w).lcu = s.lcu := rfl
@[simp] theorem State.mke_setWindows (s : State) (n : Fin 4) (w : List Window) :
    (s.setWindows n w).mke = s.mke := rfl
@[simp] theorem State.aou_setWindows (s : State) (n : Fin 4) (w : List Window) :
    (s.setWindows n w).aou = s.aou := rfl
@[simp] theorem State.htu_setWindows (s : State) (n : Fin 4) (w : List Window) :
    (s.setWindows n w).htu = s.htu := rfl
@[simp] theorem State.rmu_setWindows (s : State) (n : Fin 4) (w : List Window) :
    (s.setWindows n w).rmu = s.rmu := rfl
@[simp] theorem State.lbi_setWindows (s : State) (n : Fin 4) (w : List Window) :
    (s.setWindows n w).lbi = s.lbi := rfl
@[simp] theorem State.stc_setWindows (s : State) (n : Fin 4) (w : List Window) :
    (s.setWindows n w).stc = s.stc := rfl
@[simp] theorem State.lpt_setWindows (s : State) (n : Fin 4) (w : List Window) :
    (s.setWindows n w).lpt = s.lpt := rfl
@[simp] theorem State.pins_setWindows (s : State) (n : Fin 4) (w : List Window) :
    (s.setWindows n w).pins = s.pins := rfl
@[simp] theorem State.pending_setWindows (s : State) (n : Fin 4) (w : List Window) :
    (s.setWindows n w).pending = s.pending := rfl

/-! ### `removeWindow` -/

@[simp] theorem State.lcu_removeWindow (s : State) (n : Fin 4) (w : Window) :
    (s.removeWindow n w).lcu = s.lcu := rfl
@[simp] theorem State.mke_removeWindow (s : State) (n : Fin 4) (w : Window) :
    (s.removeWindow n w).mke = s.mke := rfl
@[simp] theorem State.aou_removeWindow (s : State) (n : Fin 4) (w : Window) :
    (s.removeWindow n w).aou = s.aou := rfl
@[simp] theorem State.htu_removeWindow (s : State) (n : Fin 4) (w : Window) :
    (s.removeWindow n w).htu = s.htu := rfl
@[simp] theorem State.rmu_removeWindow (s : State) (n : Fin 4) (w : Window) :
    (s.removeWindow n w).rmu = s.rmu := rfl
@[simp] theorem State.lbi_removeWindow (s : State) (n : Fin 4) (w : Window) :
    (s.removeWindow n w).lbi = s.lbi := rfl
@[simp] theorem State.stc_removeWindow (s : State) (n : Fin 4) (w : Window) :
    (s.removeWindow n w).stc = s.stc := rfl
@[simp] theorem State.lpt_removeWindow (s : State) (n : Fin 4) (w : Window) :
    (s.removeWindow n w).lpt = s.lpt := rfl
@[simp] theorem State.pins_removeWindow (s : State) (n : Fin 4) (w : Window) :
    (s.removeWindow n w).pins = s.pins := rfl
@[simp] theorem State.pending_removeWindow (s : State) (n : Fin 4) (w : Window) :
    (s.removeWindow n w).pending = s.pending := rfl

/-! ### `capture` -/

@[simp] theorem State.lcu_capture (s : State) (n : Fin 4) :
    (s.capture n).lcu = s.lcu := rfl
@[simp] theorem State.mke_capture (s : State) (n : Fin 4) :
    (s.capture n).mke = s.mke := rfl
@[simp] theorem State.aou_capture (s : State) (n : Fin 4) :
    (s.capture n).aou = s.aou := rfl
@[simp] theorem State.htu_capture (s : State) (n : Fin 4) :
    (s.capture n).htu = s.htu := rfl
@[simp] theorem State.rmu_capture (s : State) (n : Fin 4) :
    (s.capture n).rmu = s.rmu := rfl
@[simp] theorem State.lbi_capture (s : State) (n : Fin 4) :
    (s.capture n).lbi = s.lbi := rfl
@[simp] theorem State.stc_capture (s : State) (n : Fin 4) :
    (s.capture n).stc = s.stc := rfl
@[simp] theorem State.lpt_capture (s : State) (n : Fin 4) :
    (s.capture n).lpt = s.lpt := rfl
@[simp] theorem State.pins_capture (s : State) (n : Fin 4) :
    (s.capture n).pins = s.pins := rfl
@[simp] theorem State.pending_capture (s : State) (n : Fin 4) :
    (s.capture n).pending = s.pending := rfl

/-! ### `useSetNumber` -/

@[simp] theorem State.lcu_useSetNumber (s : State) :
    s.useSetNumber.lcu = s.lcu := rfl
@[simp] theorem State.mke_useSetNumber (s : State) :
    s.useSetNumber.mke = s.mke := rfl
@[simp] theorem State.aou_useSetNumber (s : State) :
    s.useSetNumber.aou = s.aou := rfl
@[simp] theorem State.scu_useSetNumber (s : State) :
    s.useSetNumber.scu = s.scu := rfl
@[simp] theorem State.htu_useSetNumber (s : State) :
    s.useSetNumber.htu = s.htu := rfl
@[simp] theorem State.lbi_useSetNumber (s : State) :
    s.useSetNumber.lbi = s.lbi := rfl
@[simp] theorem State.stc_useSetNumber (s : State) :
    s.useSetNumber.stc = s.stc := rfl
@[simp] theorem State.lpt_useSetNumber (s : State) :
    s.useSetNumber.lpt = s.lpt := rfl
@[simp] theorem State.pins_useSetNumber (s : State) :
    s.useSetNumber.pins = s.pins := rfl
@[simp] theorem State.pending_useSetNumber (s : State) :
    s.useSetNumber.pending = s.pending := rfl

/-! ### `announce` -/

@[simp] theorem State.lcu_announce (s : State) (n : Nat) (a : Announcement) :
    (s.announce n a).lcu = s.lcu := rfl
@[simp] theorem State.mke_announce (s : State) (n : Nat) (a : Announcement) :
    (s.announce n a).mke = s.mke := rfl
@[simp] theorem State.aou_announce (s : State) (n : Nat) (a : Announcement) :
    (s.announce n a).aou = s.aou := rfl
@[simp] theorem State.scu_announce (s : State) (n : Nat) (a : Announcement) :
    (s.announce n a).scu = s.scu := rfl
@[simp] theorem State.htu_announce (s : State) (n : Nat) (a : Announcement) :
    (s.announce n a).htu = s.htu := rfl
@[simp] theorem State.lbi_announce (s : State) (n : Nat) (a : Announcement) :
    (s.announce n a).lbi = s.lbi := rfl
@[simp] theorem State.stc_announce (s : State) (n : Nat) (a : Announcement) :
    (s.announce n a).stc = s.stc := rfl
@[simp] theorem State.lpt_announce (s : State) (n : Nat) (a : Announcement) :
    (s.announce n a).lpt = s.lpt := rfl
@[simp] theorem State.pins_announce (s : State) (n : Nat) (a : Announcement) :
    (s.announce n a).pins = s.pins := rfl
@[simp] theorem State.pending_announce (s : State) (n : Nat) (a : Announcement) :
    (s.announce n a).pending = s.pending := rfl

/-! ### `setStation` -/

@[simp] theorem State.lcu_setStation (s : State) (st : StationState) :
    (s.setStation st).lcu = s.lcu := rfl
@[simp] theorem State.mke_setStation (s : State) (st : StationState) :
    (s.setStation st).mke = s.mke := rfl
@[simp] theorem State.aou_setStation (s : State) (st : StationState) :
    (s.setStation st).aou = s.aou := rfl
@[simp] theorem State.scu_setStation (s : State) (st : StationState) :
    (s.setStation st).scu = s.scu := rfl
@[simp] theorem State.htu_setStation (s : State) (st : StationState) :
    (s.setStation st).htu = s.htu := rfl
@[simp] theorem State.rmu_setStation (s : State) (st : StationState) :
    (s.setStation st).rmu = s.rmu := rfl
@[simp] theorem State.lbi_setStation (s : State) (st : StationState) :
    (s.setStation st).lbi = s.lbi := rfl
@[simp] theorem State.lpt_setStation (s : State) (st : StationState) :
    (s.setStation st).lpt = s.lpt := rfl
@[simp] theorem State.pins_setStation (s : State) (st : StationState) :
    (s.setStation st).pins = s.pins := rfl
@[simp] theorem State.pending_setStation (s : State) (st : StationState) :
    (s.setStation st).pending = s.pending := rfl

/-! ### `clearSync` -/

@[simp] theorem State.mke_clearSync (s : State) :
    s.clearSync.mke = s.mke := rfl
@[simp] theorem State.aou_clearSync (s : State) :
    s.clearSync.aou = s.aou := rfl
@[simp] theorem State.scu_clearSync (s : State) :
    s.clearSync.scu = s.scu := rfl
@[simp] theorem State.htu_clearSync (s : State) :
    s.clearSync.htu = s.htu := rfl
@[simp] theorem State.rmu_clearSync (s : State) :
    s.clearSync.rmu = s.rmu := rfl
@[simp] theorem State.lbi_clearSync (s : State) :
    s.clearSync.lbi = s.lbi := rfl
@[simp] theorem State.stc_clearSync (s : State) :
    s.clearSync.stc = s.stc := rfl
@[simp] theorem State.lpt_clearSync (s : State) :
    s.clearSync.lpt = s.lpt := rfl
@[simp] theorem State.pins_clearSync (s : State) :
    s.clearSync.pins = s.pins := rfl
@[simp] theorem State.pending_clearSync (s : State) :
    s.clearSync.pending = s.pending := rfl

/-! ### `zeroLcu` -/

@[simp] theorem State.mke_zeroLcu (s : State) (d : BitVec 32) (r : Nat) :
    (s.zeroLcu d r).mke = s.mke := rfl
@[simp] theorem State.aou_zeroLcu (s : State) (d : BitVec 32) (r : Nat) :
    (s.zeroLcu d r).aou = s.aou := rfl
@[simp] theorem State.scu_zeroLcu (s : State) (d : BitVec 32) (r : Nat) :
    (s.zeroLcu d r).scu = s.scu := rfl
@[simp] theorem State.htu_zeroLcu (s : State) (d : BitVec 32) (r : Nat) :
    (s.zeroLcu d r).htu = s.htu := rfl
@[simp] theorem State.rmu_zeroLcu (s : State) (d : BitVec 32) (r : Nat) :
    (s.zeroLcu d r).rmu = s.rmu := rfl
@[simp] theorem State.lbi_zeroLcu (s : State) (d : BitVec 32) (r : Nat) :
    (s.zeroLcu d r).lbi = s.lbi := rfl
@[simp] theorem State.stc_zeroLcu (s : State) (d : BitVec 32) (r : Nat) :
    (s.zeroLcu d r).stc = s.stc := rfl
@[simp] theorem State.lpt_zeroLcu (s : State) (d : BitVec 32) (r : Nat) :
    (s.zeroLcu d r).lpt = s.lpt := rfl
@[simp] theorem State.pins_zeroLcu (s : State) (d : BitVec 32) (r : Nat) :
    (s.zeroLcu d r).pins = s.pins := rfl
@[simp] theorem State.pending_zeroLcu (s : State) (d : BitVec 32) (r : Nat) :
    (s.zeroLcu d r).pending = s.pending := rfl

/-! ### `answerCode` -/

@[simp] theorem State.lcu_answerCode (s : State) (c : Byte) (st : Status) (p : List Byte) :
    (s.answerCode c st p).lcu = s.lcu := rfl
@[simp] theorem State.mke_answerCode (s : State) (c : Byte) (st : Status) (p : List Byte) :
    (s.answerCode c st p).mke = s.mke := rfl
@[simp] theorem State.aou_answerCode (s : State) (c : Byte) (st : Status) (p : List Byte) :
    (s.answerCode c st p).aou = s.aou := rfl
@[simp] theorem State.scu_answerCode (s : State) (c : Byte) (st : Status) (p : List Byte) :
    (s.answerCode c st p).scu = s.scu := rfl
@[simp] theorem State.htu_answerCode (s : State) (c : Byte) (st : Status) (p : List Byte) :
    (s.answerCode c st p).htu = s.htu := rfl
@[simp] theorem State.rmu_answerCode (s : State) (c : Byte) (st : Status) (p : List Byte) :
    (s.answerCode c st p).rmu = s.rmu := rfl
@[simp] theorem State.lbi_answerCode (s : State) (c : Byte) (st : Status) (p : List Byte) :
    (s.answerCode c st p).lbi = s.lbi := rfl
@[simp] theorem State.stc_answerCode (s : State) (c : Byte) (st : Status) (p : List Byte) :
    (s.answerCode c st p).stc = s.stc := rfl
@[simp] theorem State.pins_answerCode (s : State) (c : Byte) (st : Status) (p : List Byte) :
    (s.answerCode c st p).pins = s.pins := rfl
@[simp] theorem State.pending_answerCode (s : State) (c : Byte) (st : Status) (p : List Byte) :
    (s.answerCode c st p).pending = s.pending := rfl

/-! ### `answer` -/

@[simp] theorem State.lcu_answer (s : State) (r : Request) (st : Status) (p : List Byte) :
    (s.answer r st p).lcu = s.lcu := rfl
@[simp] theorem State.mke_answer (s : State) (r : Request) (st : Status) (p : List Byte) :
    (s.answer r st p).mke = s.mke := rfl
@[simp] theorem State.aou_answer (s : State) (r : Request) (st : Status) (p : List Byte) :
    (s.answer r st p).aou = s.aou := rfl
@[simp] theorem State.scu_answer (s : State) (r : Request) (st : Status) (p : List Byte) :
    (s.answer r st p).scu = s.scu := rfl
@[simp] theorem State.htu_answer (s : State) (r : Request) (st : Status) (p : List Byte) :
    (s.answer r st p).htu = s.htu := rfl
@[simp] theorem State.rmu_answer (s : State) (r : Request) (st : Status) (p : List Byte) :
    (s.answer r st p).rmu = s.rmu := rfl
@[simp] theorem State.lbi_answer (s : State) (r : Request) (st : Status) (p : List Byte) :
    (s.answer r st p).lbi = s.lbi := rfl
@[simp] theorem State.stc_answer (s : State) (r : Request) (st : Status) (p : List Byte) :
    (s.answer r st p).stc = s.stc := rfl
@[simp] theorem State.pins_answer (s : State) (r : Request) (st : Status) (p : List Byte) :
    (s.answer r st p).pins = s.pins := rfl
@[simp] theorem State.pending_answer (s : State) (r : Request) (st : Status) (p : List Byte) :
    (s.answer r st p).pending = s.pending := rfl

/-! ### `driven` -/

@[simp] theorem State.lcu_driven (s : State) :
    s.driven.lcu = s.lcu := by unfold State.driven; split <;> rfl
@[simp] theorem State.mke_driven (s : State) :
    s.driven.mke = s.mke := by unfold State.driven; split <;> rfl
@[simp] theorem State.aou_driven (s : State) :
    s.driven.aou = s.aou := by unfold State.driven; split <;> rfl
@[simp] theorem State.scu_driven (s : State) :
    s.driven.scu = s.scu := by unfold State.driven; split <;> rfl
@[simp] theorem State.htu_driven (s : State) :
    s.driven.htu = s.htu := by unfold State.driven; split <;> rfl
@[simp] theorem State.rmu_driven (s : State) :
    s.driven.rmu = s.rmu := by unfold State.driven; split <;> rfl
@[simp] theorem State.lbi_driven (s : State) :
    s.driven.lbi = s.lbi := by unfold State.driven; split <;> rfl
@[simp] theorem State.stc_driven (s : State) :
    s.driven.stc = s.stc := by unfold State.driven; split <;> rfl
@[simp] theorem State.lpt_driven (s : State) :
    s.driven.lpt = s.lpt := by unfold State.driven; split <;> rfl
@[simp] theorem State.pending_driven (s : State) :
    s.driven.pending = s.pending := by unfold State.driven; split <;> rfl

end Sys2Proof.Machine
end

