-- ==== Sys2Proof/Laws/Exec.lean ====
section
/-! SUPPORT. What a command answers once its event arises: the takes of frames, of the loopback and of requests. -/

namespace Sys2Proof.Machine

/-! ### The input pins under `driven` -/

@[simp] theorem State.resetn_driven (s : State) : s.driven.pins.resetn = s.pins.resetn := by
  unfold State.driven; split <;> rfl

@[simp] theorem State.enca_driven (s : State) : s.driven.pins.enca = s.pins.enca := by
  unfold State.driven; split <;> rfl

@[simp] theorem State.encb_driven (s : State) : s.driven.pins.encb = s.pins.encb := by
  unfold State.driven; split <;> rfl

@[simp] theorem State.sensors_driven (s : State) : s.driven.pins.sensors = s.pins.sensors := by
  unfold State.driven; split <;> rfl

@[simp] theorem State.lcs_driven (s : State) : s.driven.pins.lcs = s.pins.lcs := by
  unfold State.driven; split <;> rfl

@[simp] theorem State.ldo_driven (s : State) : s.driven.pins.ldo = s.pins.ldo := by
  unfold State.driven; split <;> rfl

/-- Driving the pins again changes nothing. -/
@[simp] theorem State.driven_driven (s : State) : s.driven.driven = s.driven := by
  by_cases h : s.live = true
  · have e : s.driven = s.withPins { s.pins with
        outputs := ⟨s.outputLevel 0, s.outputLevel 1, s.outputLevel 2, s.outputLevel 3⟩
        ltx := s.ltxLevel
        runok := s.runokLevel
        attn := s.attnLevel
        ldoDriven := s.ldoOn } := if_pos h
    rw [e]
    exact if_pos h
  · have e : s.driven = s.withPins { s.pins with
        outputs := .all .low, ltx := .recessive, runok := .low, attn := .low, ldoDriven := s.ldoOn } := if_neg h
    rw [e]
    exact if_neg h

/-! ### Takes -/

/-- The entry to be taken next is the oldest. -/
theorem FrameNext.nextOf {s : State} {k : FrameKind} {e : InEntry} (h : FrameNext s k e) :
    s.lbi.nextOf k = some e := by
  unfold Lbi.nextOf
  have ho := h.oldest
  cases hi : s.lbi.inbound with
  | nil => rw [hi] at ho; cases ho
  | cons x xs =>
    rw [hi] at ho
    injection ho with ho
    subst ho
    simp [h.first, h.kind]

theorem takeFrame_next {s : State} {k : FrameKind} {e : InEntry} (h : FrameNext s k e)
    (body : State → InEntry → State) : takeFrame s k body = .next (body s.dequeued e).driven := by
  unfold takeFrame
  rw [h.nextOf, h.live, h.configured]
  rfl

theorem LoopbackNext.nextLoopback {s : State} {k : FrameKind} {b : Loopback} (h : LoopbackNext s k b) :
    s.lbi.nextLoopback k = some b := by
  unfold Lbi.nextLoopback
  rw [h.held]
  simp [h.first, h.kind]

theorem takeLoopback_next {s : State} {k : FrameKind} {b : Loopback} (h : LoopbackNext s k b)
    (body : State → Loopback → State) : takeLoopback s k body = .next (body s.looped b).driven := by
  unfold takeLoopback
  rw [h.nextLoopback, h.live, h.configured]
  rfl

theorem State.taken_of_slot {s : State} {r : Request} {p : List Byte} (h : s.lpt.slot = .preparing r.code p) :
    s.taken r = some p := by
  unfold State.taken
  rw [h]
  simp

theorem takeRequest_next {s : State} {r : Request} {p : List Byte} (h : Requested s r p)
    (body : State → List Byte → State) : takeRequest s r body = .next (body s p).driven := by
  unfold takeRequest State.decodeRequest
  rw [State.taken_of_slot h.slot, h.live]
  simp [h.admitted, h.length, event]

/-- A request the station state refuses is answered and does nothing else. -/
theorem takeRequest_refused {s : State} {r : Request} {p : List Byte} {st : Status} (hl : s.live = true)
    (hs : s.lpt.slot = .preparing r.code p) (hr : r.refusal s.stc.station = some st)
    (body : State → List Byte → State) : takeRequest s r body = .next (s.answer r st).driven := by
  unfold takeRequest State.decodeRequest
  rw [State.taken_of_slot hs, hl]
  simp [hr, event]

/-- A request of the wrong length is answered RANGE and does nothing else. -/
theorem takeRequest_length {s : State} {r : Request} {p : List Byte} (hl : s.live = true)
    (hs : s.lpt.slot = .preparing r.code p) (hr : r.refusal s.stc.station = none) (hp : p.length ≠ r.length)
    (body : State → List Byte → State) :
    takeRequest s r body = .next (s.answer r .range r.lengthPayload).driven := by
  unfold takeRequest State.decodeRequest
  rw [State.taken_of_slot hs, hl]
  simp [hr, hp, event]

/-- A take of a request either does nothing, or drives what the decoded request leaves. -/
theorem takeRequest_cases (s : State) (r : Request) (body : State → List Byte → State) :
    takeRequest s r body = .next s ∨
      ∃ p, s.live = true ∧ s.lpt.slot = .preparing r.code p ∧
        takeRequest s r body = .next (s.decodeRequest r p body).driven := by
  unfold takeRequest
  split
  · rename_i p hl ht
    refine .inr ⟨p, hl, ?_, rfl⟩
    unfold State.taken at ht
    split at ht
    · rename_i code q hs
      split at ht
      · rename_i hc; injection ht with ht; rw [hs, hc, ht]
      · cases ht
    · cases ht
  · exact .inl rfl

/-- A take of a frame either does nothing, or drives what its block leaves. -/
theorem takeFrame_cases (s : State) (k : FrameKind) (body : State → InEntry → State) :
    takeFrame s k body = .next s ∨
      ∃ e, s.live = true ∧ s.configured = true ∧ s.lbi.nextOf k = some e ∧
        takeFrame s k body = .next (body s.dequeued e).driven := by
  unfold takeFrame
  split
  · rename_i e hc hn
    rw [Bool.and_eq_true] at hc
    exact .inr ⟨e, hc.1, hc.2, hn, rfl⟩
  · exact .inl rfl

/-- A take of the loopback either does nothing, or drives what its block leaves. -/
theorem takeLoopback_cases (s : State) (k : FrameKind) (body : State → Loopback → State) :
    takeLoopback s k body = .next s ∨
      ∃ b, s.live = true ∧ s.configured = true ∧ s.lbi.nextLoopback k = some b ∧
        takeLoopback s k body = .next (body s.looped b).driven := by
  unfold takeLoopback
  split
  · rename_i b hc hn
    rw [Bool.and_eq_true] at hc
    exact .inr ⟨b, hc.1, hc.2, hn, rfl⟩
  · exact .inl rfl

/-! ### The bits of a transaction -/

@[simp] theorem length_bytesOf (n : Nat) (bits : List Bool) : (bytesOf n bits).length = n := by
  induction n generalizing bits with
  | zero => rfl
  | succ n ih => simp [bytesOf, ih]

/-- Only whole bytes are clocked in. -/
@[simp] theorem length_clockedBytes (bits : List Bool) : (clockedBytes bits).length = bits.length / 8 :=
  length_bytesOf _ _

@[simp] theorem length_bitsOf (w n : Nat) : (bitsOf w n).length = w := by
  induction w with
  | zero => rfl
  | succ w ih => simp [bitsOf, ih]

/-- One level of LDO for each bit clocked. -/
@[simp] theorem length_shiftOut (frame : List Byte) (n : Nat) : (shiftOut frame n).length = n := by
  have h : (frame.flatMap (fun b => bitsOf 8 b.toNat)).length = 8 * frame.length := by
    induction frame with
    | nil => rfl
    | cons b bs ih => simp only [List.flatMap_cons, List.length_append, length_bitsOf, ih, List.length_cons]; omega
  simp only [shiftOut, List.length_take, List.length_append, List.length_replicate, h]
  omega

end Sys2Proof.Machine
end

