-- ==== Sys2Proof/Laws/Lists.lean ====
section
/-! SUPPORT. The list operations of Ops.lean: lengths and members. -/

namespace Sys2Proof.Machine

@[simp] theorem length_insertByKey {α : Type} (key : α → Nat) (x : α) (ys : List α) :
    (insertByKey key x ys).length = ys.length + 1 := by
  induction ys with
  | nil => rfl
  | cons y ys ih => simp only [insertByKey]; split <;> simp [ih]

@[simp] theorem mem_insertByKey {α : Type} (key : α → Nat) (x a : α) (ys : List α) :
    a ∈ insertByKey key x ys ↔ a = x ∨ a ∈ ys := by
  induction ys with
  | nil => simp [insertByKey]
  | cons y ys ih =>
    simp only [insertByKey]
    split
    · simp only [List.mem_cons, ih]; tauto
    · simp

/-- Inserting among strictly rising keys, none of them that of the new element, keeps them strictly rising. -/
theorem pairwise_insertByKey {α : Type} (key : α → Nat) (x : α) (ys : List α)
    (h : ys.Pairwise (fun a b => key a < key b)) (hx : ∀ y ∈ ys, key y ≠ key x) :
    (insertByKey key x ys).Pairwise (fun a b => key a < key b) := by
  induction ys with
  | nil => simp [insertByKey]
  | cons y ys ih =>
    rw [List.pairwise_cons] at h
    simp only [insertByKey]
    split
    · rename_i hle
      refine List.pairwise_cons.mpr ⟨?_, ih h.2 (fun z hz => hx z (List.mem_cons_of_mem _ hz))⟩
      intro a ha
      rcases (mem_insertByKey key x a ys).mp ha with rfl | ha
      · have := hx y (List.mem_cons_self ..); omega
      · exact h.1 a ha
    · rename_i hle
      refine List.pairwise_cons.mpr ⟨?_, List.pairwise_cons.mpr h⟩
      intro a ha
      rcases List.mem_cons.mp ha with rfl | ha
      · omega
      · have := h.1 a ha; omega

/-- A list sorted so far under a stable order takes a new element that stands after all of it. -/
theorem stable_insertByKey {α : Type} (key : α → Nat) (R : α → α → Prop) (x : α) (ys : List α)
    (h : ys.Pairwise (fun a b => key a < key b ∨ (key a = key b ∧ R a b))) (hx : ∀ y ∈ ys, R y x) :
    (insertByKey key x ys).Pairwise (fun a b => key a < key b ∨ (key a = key b ∧ R a b)) := by
  induction ys with
  | nil => simp [insertByKey]
  | cons y ys ih =>
    rw [List.pairwise_cons] at h
    simp only [insertByKey]
    split
    · rename_i hle
      refine List.pairwise_cons.mpr ⟨?_, ih h.2 (fun z hz => hx z (List.mem_cons_of_mem _ hz))⟩
      intro a ha
      rcases (mem_insertByKey key x a ys).mp ha with rfl | ha
      · rcases Nat.lt_or_eq_of_le hle with hlt | heq
        · exact .inl hlt
        · exact .inr ⟨heq, hx y (List.mem_cons_self ..)⟩
      · exact h.1 a ha
    · rename_i hlt
      refine List.pairwise_cons.mpr ⟨?_, List.pairwise_cons.mpr h⟩
      intro a ha
      left
      rcases List.mem_cons.mp ha with rfl | ha
      · omega
      · rcases h.1 a ha with hya | ⟨hya, -⟩ <;> omega

/-- `sortByKey` holds the elements given. -/
@[simp] theorem mem_sortByKey {α : Type} (key : α → Nat) (a : α) (xs : List α) : a ∈ sortByKey key xs ↔ a ∈ xs := by
  have acc : ∀ (zs : List α), a ∈ xs.foldl (fun acc x => insertByKey key x acc) zs ↔ a ∈ zs ∨ a ∈ xs := by
    induction xs with
    | nil => simp
    | cons x xs ih =>
      intro zs
      rw [List.foldl_cons, ih, mem_insertByKey, List.mem_cons]
      tauto
  simpa [sortByKey] using acc []

/-- `sortByKey` is stable: equal keys keep the order the list had. -/
theorem pairwise_sortByKey {α : Type} (key : α → Nat) (R : α → α → Prop) (xs : List α) (h : xs.Pairwise R) :
    (sortByKey key xs).Pairwise (fun a b => key a < key b ∨ (key a = key b ∧ R a b)) := by
  have acc : ∀ (zs : List α), zs.Pairwise (fun a b => key a < key b ∨ (key a = key b ∧ R a b)) →
      (∀ z ∈ zs, ∀ x ∈ xs, R z x) →
      (xs.foldl (fun acc x => insertByKey key x acc) zs).Pairwise
        (fun a b => key a < key b ∨ (key a = key b ∧ R a b)) := by
    induction xs with
    | nil => exact fun zs hz _ => hz
    | cons x xs ih =>
      intro zs hz hzx
      rw [List.pairwise_cons] at h
      rw [List.foldl_cons]
      refine ih h.2 _ (stable_insertByKey key R x zs hz fun z hz => hzx z hz x (List.mem_cons_self ..)) ?_
      intro z hz' y hy
      rcases (mem_insertByKey key x z zs).mp hz' with rfl | hz'
      · exact h.1 y hy
      · exact hzx z hz' y (List.mem_cons_of_mem _ hy)
  exact acc [] List.Pairwise.nil (by simp)

@[simp] theorem length_modifyAt {α : Type} (f : α → α) (n : Nat) (xs : List α) :
    (modifyAt f n xs).length = xs.length := by
  induction xs generalizing n with
  | nil => cases n <;> rfl
  | cons x xs ih => cases n <;> simp [modifyAt, ih]

theorem holdInc_le {top n : Nat} (h : n ≤ top) : holdInc top n ≤ top := by
  unfold holdInc; split <;> omega

theorem le_holdInc (top n : Nat) : n ≤ holdInc top n := by
  unfold holdInc; split <;> omega

theorem holdAdd_le {top n k : Nat} (h : n ≤ top) : holdAdd top n k ≤ top := by
  unfold holdAdd; split <;> omega

/-- Reading one of four after replacing one. -/
theorem Four.get_set {α : Type} (f : Four α) (i j : Fin 4) (a : α) :
    (f.set i a).get j = if j = i then a else f.get j := by
  match i, j with
  | 0, 0 => rfl
  | 0, 1 => rfl
  | 0, 2 => rfl
  | 0, 3 => rfl
  | 1, 0 => rfl
  | 1, 1 => rfl
  | 1, 2 => rfl
  | 1, 3 => rfl
  | 2, 0 => rfl
  | 2, 1 => rfl
  | 2, 2 => rfl
  | 2, 3 => rfl
  | 3, 0 => rfl
  | 3, 1 => rfl
  | 3, 2 => rfl
  | 3, 3 => rfl

end Sys2Proof.Machine
end

