-- ==== Sys2Proof/Laws/Parts.lean ====
section
/-! SUPPORT. What marks, actions, pulses, windows and closes of roll sets can do to the state, said once: a predicate
kept by the parts they are made of is kept by all of them. -/

namespace Sys2Proof.Machine

/-- What they do to the Mark Engine. -/
structure MkePart (m n : Mke) : Prop where
  numbering : SameNumbering m n
  ok : MkeOk m → MkeOk n

/-- What they do to the Action Output Unit: the merge counts stay good, and each edge counted takes a channel from IDLE
to an active state or back. -/
structure AouPart (a b : Aou) : Prop where
  ok : AouOk a → AouOk b
  edges : ∀ i, (b.edges.get i + (b.channels.get i).state.active.toNat) % 2 =
    (a.edges.get i + (a.channels.get i).state.active.toNat) % 2

/-- What they do to the Sensor Capture Unit. -/
structure ScuPart (x y : Scu) : Prop where
  filtered : y.filtered = x.filtered
  captures : y.captures = x.captures
  ok : ScuOk x → ScuOk y

/-- A predicate that each part of these operations keeps, but for the CUTOVER frame of a close. `G` says whether the
predicate takes the roll sets to be good: with `True` it gives that they are and may rest on it, with `False` it does
neither. -/
structure KeptByMarks (G : Prop) (P : State → Prop) : Prop where
  place : ∀ s n, P s → P (s.withLpt (s.lpt.place n))
  count : ∀ s k, P s → P (s.count k)
  fault : ∀ s k o, P s → P (s.recordFault k o)
  mke : ∀ s m, MkePart s.mke m → P s → P (s.withMke m)
  aou : ∀ s a, AouPart s.aou a → P s → P (s.withAou a)
  scu : ∀ s x, ScuPart s.scu x → P s → P (s.withScu x)
  rmuOk : G → ∀ s, P s → RmuOk s.rmu
  rmu : ∀ s r, r.nextSet = s.rmu.nextSet → (G → RmuOk r) → P s → P (s.withRmu r)
  claim : ∀ s n k m, n < 4 → P s → P (s.makeClaim n k m)

/-- A predicate that each part of these operations keeps, closes of roll sets included. -/
structure KeptByParts (G : Prop) (P : State → Prop) : Prop extends KeptByMarks G P where
  cutover : ∀ s k n, s.lbi.normalFree = true → P s → P (s.withLbi (s.lbi.queueNormal (.cutover k n)))

variable {G : Prop} {P : State → Prop} (K : KeptByMarks G P) (L : KeptByParts G P)

/-! ### Notices -/

include K in
theorem State.notice_kept {s : State} (h : P s) (k : NoticeKind) (o : Option Nat) (n : Option MarkNo)
    (v : Option (BitVec 32)) : P (s.notice k o n v) := K.place _ _ h

include K in
theorem State.noticeMark_kept {s : State} (h : P s) (k : NoticeKind) (m : Option MarkRef)
    (v : Option (BitVec 32)) : P (s.noticeMark k m v) := K.place _ _ h

/-! ### The mark queue -/

/-- Changing each record without renaming it or its mark keeps the queue good. -/
theorem MkeOk.mapQueue {m : Mke} (h : MkeOk m) (f : MarkRecord → MarkRecord)
    (hf : ∀ r, (f r).origin = r.origin ∧ (f r).number = r.number ∧ (f r).uid = r.uid) :
    MkeOk { m with queue := m.queue.map f } := by
  refine ⟨by simpa using h.room, ?_, ?_, h.spill⟩
  · refine List.pairwise_map.mpr (h.distinct.imp ?_)
    intro a b hab
    refine ⟨fun hs => hab.1 ?_, by rw [(hf a).2.2, (hf b).2.2]; exact hab.2⟩
    exact ⟨by rw [← (hf a).1]; exact hs.1, by rw [← (hf a).2.1]; exact hs.2.1,
      by rw [← (hf a).1, ← (hf b).1]; exact hs.2.2.1, by rw [← (hf a).2.1, ← (hf b).2.1]; exact hs.2.2.2⟩
  · intro r hr
    obtain ⟨q, hq, rfl⟩ := List.mem_map.mp hr
    rw [(hf q).2.2]
    exact h.names q hq

/-- Records that leave keep the queue good. -/
theorem MkeOk.filterQueue {m : Mke} (h : MkeOk m) (p : MarkRecord → Bool) (k : Nat) :
    MkeOk { m with queue := m.queue.filter p, retired := k } :=
  ⟨(List.length_filter_le _ _).trans h.room, h.distinct.filter _,
    fun r hr => h.names r (List.mem_of_mem_filter hr), h.spill⟩

include K in
theorem State.setAction_kept {s : State} (h : P s) (u i : Nat) (a : ActionState) : P (s.setAction u i a) := by
  refine K.mke _ _ ⟨⟨rfl, rfl, rfl, rfl, rfl⟩, fun ok => ok.mapQueue _ (fun r => ?_)⟩ h
  split <;> exact ⟨rfl, rfl, rfl⟩

include K in
theorem State.examineRecord_kept {s : State} (h : P s) (u : Nat) : P (s.examineRecord u) := by
  unfold State.examineRecord
  split
  · exact K.mke _ _ ⟨⟨rfl, rfl, rfl, rfl, rfl⟩, fun ok => ok.filterQueue _ _⟩ h
  · exact h

@[simp] theorem length_insertRecord (r : MarkRecord) (q : List MarkRecord) :
    (insertRecord r q).length = q.length + 1 := by
  induction q with
  | nil => rfl
  | cons y ys ih => simp only [insertRecord]; split <;> simp [ih]

@[simp] theorem mem_insertRecord (r a : MarkRecord) (q : List MarkRecord) :
    a ∈ insertRecord r q ↔ a = r ∨ a ∈ q := by
  induction q with
  | nil => simp [insertRecord]
  | cons y ys ih =>
    simp only [insertRecord]
    split
    · simp only [List.mem_cons, ih]; tauto
    · simp

theorem SameMark.swap {a b : MarkRecord} (h : SameMark a b) : SameMark b a :=
  ⟨h.2.2.1 ▸ h.1, h.2.2.2 ▸ h.2.1, h.2.2.1.symm, h.2.2.2.symm⟩

theorem Apart.swap {a b : MarkRecord} (h : Apart a b) : Apart b a := ⟨fun hs => h.1 hs.swap, h.2.symm⟩

theorem distinct_insertRecord {r : MarkRecord} {q : List MarkRecord} (h : q.Pairwise Apart)
    (hr : ∀ a ∈ q, Apart a r) : (insertRecord r q).Pairwise Apart := by
  induction q with
  | nil => simp [insertRecord]
  | cons y ys ih =>
    rw [List.pairwise_cons] at h
    simp only [insertRecord]
    split
    · refine List.pairwise_cons.mpr ⟨?_, ih h.2 (fun a ha => hr a (List.mem_cons_of_mem _ ha))⟩
      intro a ha
      rcases (mem_insertRecord r a ys).mp ha with rfl | ha
      · exact hr y (List.mem_cons_self ..)
      · exact h.1 a ha
    · exact List.pairwise_cons.mpr ⟨fun a ha => (hr a ha).swap, List.pairwise_cons.mpr h⟩

/-! ### Roll sets -/

include K in
theorem State.dropEntry_kept {s : State} (h : P s) (r : RollSet) (e : RollEntry) : P (s.dropEntry r e).1 := by
  unfold State.dropEntry; split
  · exact State.noticeMark_kept K h ..
  · exact h

@[simp] theorem State.rmu_dropEntry (s : State) (r : RollSet) (e : RollEntry) : (s.dropEntry r e).1.rmu = s.rmu := by
  unfold State.dropEntry; split <;> rfl

theorem State.dropEntry_set {s : State} {r : RollSet} (h : SetOk r) (e : RollEntry) : SetOk (s.dropEntry r e).2 :=
  ⟨h.number, h.entries, holdInc_le h.dropped⟩

include K in
theorem State.enter_kept {s : State} (h : P s) (r : RollSet) (e : RollEntry) : P (s.enter r e).1 := by
  unfold State.enter; split
  · exact h
  · exact State.dropEntry_kept K h ..

@[simp] theorem State.rmu_enter (s : State) (r : RollSet) (e : RollEntry) : (s.enter r e).1.rmu = s.rmu := by
  unfold State.enter; split
  · rfl
  · exact State.rmu_dropEntry ..

theorem State.enter_set {s : State} {r : RollSet} (h : SetOk r) (e : RollEntry) : SetOk (s.enter r e).2 := by
  unfold State.enter; split
  · exact ⟨h.number, by simp only [insertEntry, length_insertByKey]; omega, h.dropped⟩
  · exact State.dropEntry_set h e

include K in
theorem State.enterAll_kept (es : List RollEntry) {s : State} (h : P s) (r : RollSet) : P (s.enterAll r es).1 := by
  induction es generalizing s r with
  | nil => exact h
  | cons e es ih => exact ih (State.enter_kept K h r e) _

@[simp] theorem State.rmu_enterAll (es : List RollEntry) (s : State) (r : RollSet) :
    (s.enterAll r es).1.rmu = s.rmu := by
  induction es generalizing s r with
  | nil => rfl
  | cons e es ih => simp only [State.enterAll]; rw [ih]; exact State.rmu_enter ..

theorem State.enterAll_set (es : List RollEntry) {s : State} {r : RollSet} (h : SetOk r) :
    SetOk (s.enterAll r es).2 := by
  induction es generalizing s r with
  | nil => exact h
  | cons e es ih => exact ih (State.enter_set h e)

include K in
theorem State.dropAll_kept (es : List RollEntry) {s : State} (h : P s) (r : RollSet) : P (s.dropAll r es).1 := by
  induction es generalizing s r with
  | nil => exact h
  | cons e es ih => exact ih (State.dropEntry_kept K h r e) _

@[simp] theorem State.rmu_dropAll (es : List RollEntry) (s : State) (r : RollSet) :
    (s.dropAll r es).1.rmu = s.rmu := by
  induction es generalizing s r with
  | nil => rfl
  | cons e es ih => simp only [State.dropAll]; rw [ih]; exact State.rmu_dropEntry ..

theorem State.dropAll_set (es : List RollEntry) {s : State} {r : RollSet} (h : SetOk r) :
    SetOk (s.dropAll r es).2 := by
  induction es generalizing s r with
  | nil => exact h
  | cons e es ih => exact ih (State.dropEntry_set (s := s) h e)

/-- Roll sets stay good where the current set is replaced by a good one. -/
theorem RmuOk.setCurrent {r : Rmu} {c : RollSet} (ok : RmuOk r) (h : SetOk c) : RmuOk { r with current := some c } :=
  ⟨ok.nextSet, ok.room, ok.closed, fun x e => by cases e; exact h, ok.next⟩

/-- Roll sets stay good where the NEXT set is replaced by a good one. -/
theorem RmuOk.setNext {r : Rmu} {c : RollSet} (ok : RmuOk r) (h : SetOk c) : RmuOk { r with next := some c } :=
  ⟨ok.nextSet, ok.room, ok.closed, ok.current, fun x e => by cases e; exact h⟩

include K in
theorem State.recordEntry_kept {s : State} (h : P s) (x : RecordHandoff) : P (s.recordEntry x) := by
  have setNext : ∀ r e, (G → SetOk r) →
      P ((s.enter r e).1.withRmu { (s.enter r e).1.rmu with next := some (s.enter r e).2 }) := fun r e hr =>
    K.rmu _ _ rfl (fun g => RmuOk.setNext (K.rmuOk g _ (State.enter_kept K h r e)) (State.enter_set (hr g) e))
      (State.enter_kept K h r e)
  have setCurrent : ∀ r e, (G → SetOk r) →
      P ((s.enter r e).1.withRmu { (s.enter r e).1.rmu with current := some (s.enter r e).2 }) := fun r e hr =>
    K.rmu _ _ rfl (fun g => RmuOk.setCurrent (K.rmuOk g _ (State.enter_kept K h r e)) (State.enter_set (hr g) e))
      (State.enter_kept K h r e)
  unfold State.recordEntry
  split
  · exact h
  · rename_i cur hc
    split
    · rename_i cut nxt hcut hn
      split
      · exact setNext _ _ (fun g => (K.rmuOk g s h).next _ hn)
      · exact setCurrent _ _ (fun g => (K.rmuOk g s h).current _ hc)
    · exact setCurrent _ _ (fun g => (K.rmuOk g s h).current _ hc)

/-! ### Actions at other blocks -/

theorem State.freeClaim_lt {s : State} {n : Nat} (h : s.freeClaim = some n) : n < 4 := by
  have := List.mem_of_find?_eq_some h
  simp at this; omega

include K in
theorem State.fireHold_kept {s : State} (h : P s) (r : MarkRecord) (i : Nat) : P (s.fireHold r i) := by
  unfold State.fireHold
  split
  · rename_i n hn
    exact State.setAction_kept K (K.claim _ _ _ _ (State.freeClaim_lt hn) h) ..
  · exact State.setAction_kept K (State.noticeMark_kept K h ..) ..

include K in
theorem State.fireRecord_kept {s : State} (h : P s) (r : MarkRecord) (i : Nat) (late : Bool) :
    P (s.fireRecord r i late) := by
  unfold State.fireRecord
  refine State.setAction_kept K ?_ ..
  split
  · exact State.recordEntry_kept K h _
  · exact h

include K in
theorem State.lateAction_kept {s : State} (h : P s) (r : MarkRecord) (ia : Nat × Action) :
    P (s.lateAction r ia) := by
  unfold State.lateAction
  split
  · split
    · exact State.fireHold_kept K h ..
    · exact State.fireRecord_kept K h ..
    all_goals exact State.setAction_kept K h ..
  · exact h

/-- A predicate that each round keeps is kept by the whole of a fold. -/
theorem foldl_kept {α : Type} (P : State → Prop) {f : State → α → State} (hf : ∀ s a, P s → P (f s a)) (xs : List α)
    {s : State} (h : P s) : P (xs.foldl f s) := by
  induction xs generalizing s with
  | nil => exact h
  | cons x xs ih => exact ih (hf _ _ h)

/-- No held record is of the mark of the record that enters. -/
def Mke.fresh (m : Mke) (r : MarkRecord) : Prop := ∀ a ∈ m.queue, ¬ SameMark a r

theorem SameMark.of_eq {a r q : MarkRecord} (ho : q.origin = r.origin) (hn : q.number = r.number)
    (h : SameMark a q) : SameMark a r := ⟨h.1, h.2.1, ho ▸ h.2.2.1, hn ▸ h.2.2.2⟩

include K in
theorem State.enterRecord_kept {s : State} (h : P s) (r : MarkRecord) (room : s.mke.queue.length < 64)
    (fresh : s.mke.fresh r) (name : r.uid = s.mke.nextUid) : P (s.enterRecord r) := by
  have placed : P (s.withMke { s.mke with
      queue := insertRecord { r with late := decide (0 < s.reachedActions r) } s.mke.queue
      nextUid := s.mke.nextUid + 1 }) := by
    refine K.mke _ _ ⟨⟨rfl, rfl, rfl, rfl, rfl⟩,
      fun ok => ⟨by simp only [length_insertRecord]; omega, ?_, ?_, ok.spill⟩⟩ h
    · refine distinct_insertRecord ok.distinct (fun a ha => ⟨fun hs => fresh a ha (hs.of_eq rfl rfl), ?_⟩)
      have := ok.names a ha
      simp only [name]; omega
    · intro a ha
      rcases (mem_insertRecord _ _ _).mp ha with rfl | ha
      · simp [name]
      · have := ok.names a ha; simp only; omega
  unfold State.enterRecord
  simp only
  split
  · exact placed
  · exact State.examineRecord_kept K (State.noticeMark_kept K
      (foldl_kept P (fun t ia ht => State.lateAction_kept K ht r ia) _ placed) ..) _

include K in
theorem State.foldSpill_kept {s : State} (h : P s) (ref : Option MarkRef) (q : Coord) (x : Nat) :
    P (s.foldSpill ref q x) := by
  unfold State.foldSpill
  simp only
  split
  · refine K.count _ _ (State.noticeMark_kept K ?_ ..)
    refine K.mke _ _ ⟨⟨rfl, rfl, rfl, rfl, rfl⟩, fun ok => ⟨ok.room, ok.distinct, ok.names, ?_⟩⟩ h
    intro sp e; cases e; exact Nat.le_of_ble_eq_true rfl
  · rename_i sp hsp
    refine K.count _ _ (K.mke _ _ ⟨⟨rfl, rfl, rfl, rfl, rfl⟩, fun ok => ⟨ok.room, ok.distinct, ok.names, ?_⟩⟩ h)
    intro sp' e; cases e; exact holdInc_le (ok.spill sp hsp)

include K in
theorem State.admitMark_kept {s : State} (h : P s) (o : MarkOffer)
    (fresh : s.mke.queue.length < 64 → s.mke.fresh (s.makeRecord o)) : P (s.admitMark o).1 := by
  unfold State.admitMark
  split
  · exact h
  · split
    · exact State.foldSpill_kept K h ..
    · rename_i hr
      exact State.enterRecord_kept K h _ (by omega) (fresh (by omega)) rfl

/-- A record without a mark number is of no held mark. -/
theorem Mke.fresh_blind (m : Mke) (r : MarkRecord) (h : r.number = none) : m.fresh r :=
  fun a _ hs => by have := hs.2.1; rw [hs.2.2.2, h] at this; cases this

include K in
theorem State.enterSpill_kept {s : State} (h : P s) {sp : Spill} (hs : s.mke.spill = some sp) :
    P (s.enterSpill sp) := by
  unfold State.enterSpill
  refine State.admitMark_kept K ?_ _ (fun _ => Mke.fresh_blind _ _ rfl)
  refine K.mke _ _ ⟨⟨rfl, rfl, rfl, rfl, rfl⟩, fun ok => ⟨ok.room, ok.distinct, ok.names, fun sp' e => ?_⟩⟩ h
  have e' : (if 65535 < (sp.high - sp.low).toNat then some { sp with low := sp.low + 65535#32 } else none) =
    some sp' := e
  by_cases hb : 65535 < (sp.high - sp.low).toNat
  · rw [if_pos hb] at e'
    rw [← Option.some.inj e']
    exact ok.spill sp hs
  · rw [if_neg hb] at e'
    exact absurd e' (by simp)

include K in
theorem settleLoop_kept (n : Nat) {s : State} (h : P s) : P (settleLoop n s) := by
  have clear : ∀ {t : State}, P t → P (t.withMke { t.mke with retired := 0 }) := fun ht =>
    K.mke _ _ ⟨⟨rfl, rfl, rfl, rfl, rfl⟩, fun ok => ⟨ok.room, ok.distinct, ok.names, ok.spill⟩⟩ ht
  induction n generalizing s with
  | zero => exact clear h
  | succ n ih =>
    unfold settleLoop
    split
    · exact h
    · split
      · exact clear h
      · rename_i sp hs
        exact ih (State.enterSpill_kept K h hs)

include K in
theorem State.settleSpill_kept {s : State} (h : P s) : P s.settleSpill := by
  unfold State.settleSpill
  split
  · split
    · exact h
    · exact K.mke _ _ ⟨⟨rfl, rfl, rfl, rfl, rfl⟩, fun ok => ⟨ok.room, ok.distinct, ok.names, ok.spill⟩⟩ h
  · exact settleLoop_kept K _ h

include K in
theorem State.offerPlain_kept {s : State} (h : P s) (o : MarkOffer)
    (fresh : s.mke.queue.length < 64 → s.mke.fresh (s.makeRecord o)) : P (s.offerPlain o).1 :=
  State.settleSpill_kept K (State.admitMark_kept K h o fresh)

theorem State.fresh_of_sameIdentity {s : State} {o : MarkOffer} (h : s.sameIdentity o = none) :
    s.mke.fresh (s.makeRecord o) := by
  intro a ha hs
  unfold State.sameIdentity at h
  have e1 : a.origin = o.origin := hs.2.2.1
  have e2 : a.number = o.number := hs.2.2.2
  have hv : (validStation o.origin && o.number.isSome) = true := by
    rw [← e1, ← e2]; simp [hs.1, hs.2.1]
  rw [if_pos hv, List.find?_eq_none] at h
  have := h a ha
  simp [e1, e2] at this

include K in
theorem State.offerMark_kept {s : State} (h : P s) (o : MarkOffer) : P (s.offerMark o).1 := by
  unfold State.offerMark
  split
  · exact h
  · split
    · rename_i hf
      exact State.offerPlain_kept K h o (fun hr => absurd hf (by omega))
    · split
      · rename_i hn
        exact State.offerPlain_kept K h o (fun _ => State.fresh_of_sameIdentity hn)
      · split
        · exact State.noticeMark_kept K h ..
        · exact State.offerPlain_kept K (State.noticeMark_kept K h ..) _ (fun _ => Mke.fresh_blind _ _ rfl)

include K in
theorem State.pulseEnded_kept {s : State} (h : P s) (ch : Fin 4) : P (s.pulseEnded ch) := by
  unfold State.pulseEnded
  refine foldl_kept P (fun t u ht => State.examineRecord_kept K ht u) _ ?_
  exact K.mke _ _ ⟨⟨rfl, rfl, rfl, rfl, rfl⟩, fun ok => ok.mapQueue _ (fun r => ⟨rfl, rfl, rfl⟩)⟩ h

include K in
theorem State.windowClosed_kept {s : State} (h : P s) (w : Window) (c : Bool) : P (s.windowClosed w c) := by
  unfold State.windowClosed
  split
  · exact State.examineRecord_kept K (State.setAction_kept K h ..) _
  · exact h

/-! ### Output channels -/

@[simp] theorem ChannelState.active_idle : ChannelState.idle.active = false := rfl
@[simp] theorem ChannelState.active_pulsing (t : BitVec 32) : (ChannelState.pulsing t).active = true := rfl
@[simp] theorem ChannelState.active_latched : ChannelState.latched.active = true := rfl

@[simp] theorem Aou.get_put (a : Aou) (ch i : Fin 4) (st : ChannelState) (m : Nat) :
    (a.put ch st m).channels.get i = if i = ch then ⟨st, m⟩ else a.channels.get i := Four.get_set ..

/-- The edges after a channel is put into a state. -/
theorem Aou.edges_put (a : Aou) (ch i : Fin 4) (st : ChannelState) (m : Nat) :
    (a.put ch st m).edges.get i =
      if i = ch ∧ (a.channels.get ch).state.active ≠ st.active then a.edges.get i + 1 else a.edges.get i := by
  by_cases h : (a.channels.get ch).state.active = st.active
  · simp [Aou.put, h]
  · simp only [Aou.put, if_neg h, Four.get_set]
    by_cases hi : i = ch
    · subst hi; simp [h]
    · simp [hi]

/-- Putting a channel into a state, with a merge count that holds, is a part. -/
theorem AouPart.put {a : Aou} {ch : Fin 4} {st : ChannelState} {m : Nat} (hm : AouOk a → m ≤ 255) :
    AouPart a (a.put ch st m) := by
  refine ⟨fun ok i => ?_, fun i => ?_⟩
  · rw [Aou.get_put]
    split
    · exact hm ok
    · exact ok i
  · rw [Aou.get_put, Aou.edges_put]
    by_cases hi : i = ch
    · subst hi
      rcases (a.channels.get i).state.active <;> rcases h : st.active <;> simp [h]
      omega
    · simp [hi]

theorem AouPart.trans {a b c : Aou} (h : AouPart a b) (k : AouPart b c) : AouPart a c :=
  ⟨fun ok => k.ok (h.ok ok), fun i => (k.edges i).trans (h.edges i)⟩

/-- Every channel becoming IDLE is a part. -/
theorem AouPart.idled (a : Aou) : AouPart a a.idled :=
  have one : ∀ (b : Aou) (ch : Fin 4), AouPart b (b.put ch .idle 0) := fun _ _ => AouPart.put (fun _ => by decide)
  (((one a 0).trans (one _ 1)).trans (one _ 2)).trans (one _ 3)

/-- After it every channel is IDLE, and each that was active has made one edge. -/
theorem Aou.get_idled (a : Aou) (i : Fin 4) :
    a.idled.channels.get i = ⟨.idle, 0⟩ ∧
    a.idled.edges.get i = a.edges.get i + (a.channels.get i).state.active.toNat := by
  have e : a.idled = (((a.put 0 .idle 0).put 1 .idle 0).put 2 .idle 0).put 3 .idle 0 := rfl
  rw [e]
  simp only [Aou.edges_put, Aou.get_put]
  match i with
  | 0 => cases (a.channels.get 0).state.active <;> simp
  | 1 => cases h : (a.channels.get 1).state.active <;> simp [h]
  | 2 => cases h : (a.channels.get 2).state.active <;> simp [h]
  | 3 => cases h : (a.channels.get 3).state.active <;> simp [h]

include K in
theorem State.setChannel_kept {s : State} (h : P s) (ch : Fin 4) (st : ChannelState) {m : Nat}
    (hm : AouOk s.aou → m ≤ 255) : P (s.setChannel ch st m) := K.aou _ _ (AouPart.put hm) h

include K in
theorem State.idleChannel_kept {s : State} (h : P s) (ch : Fin 4) : P (s.idleChannel ch) :=
  State.setChannel_kept K h ch _ (fun _ => by decide)

include K in
theorem State.reportEnd_kept {s : State} (h : P s) (ch : Fin 4) : P (s.reportEnd ch) := by
  unfold State.reportEnd
  split
  · exact State.pulseEnded_kept K h ch
  · exact h

include K in
theorem State.pulseRequest_kept {s : State} (h : P s) (ch : Fin 4) (b : Coord) (w : Nat) (m : Option MarkRef) :
    P (s.pulseRequest ch b w m) := by
  unfold State.pulseRequest
  simp only
  split
  · split
    · exact State.noticeMark_kept K h ..
    · exact State.setChannel_kept K h _ _ (fun _ => by decide)
  · exact State.noticeMark_kept K (State.setChannel_kept K h _ _ (fun ok => holdInc_le (ok ch))) ..
  · exact State.reportEnd_kept K (State.noticeMark_kept K
      (State.setChannel_kept K h _ _ (fun ok => holdInc_le (ok ch))) ..) _

include K in
theorem State.setLevel_kept {s : State} (h : P s) (ch : Fin 4) : P (s.setLevel ch) := by
  unfold State.setLevel
  split
  · exact State.setChannel_kept K h _ _ (fun ok => ok ch)
  · exact State.reportEnd_kept K (State.setChannel_kept K h _ _ (fun ok => ok ch)) _
  · exact h

include K in
theorem State.clearLevel_kept {s : State} (h : P s) (ch : Fin 4) : P (s.clearLevel ch) := by
  unfold State.clearLevel
  split
  · exact h
  · exact State.reportEnd_kept K (State.idleChannel_kept K h ch) _
  · exact State.idleChannel_kept K h ch

include K in
theorem State.toggleLevel_kept {s : State} (h : P s) (ch : Fin 4) : P (s.toggleLevel ch) := by
  unfold State.toggleLevel
  split
  · exact State.setChannel_kept K h _ _ (fun ok => ok ch)
  · exact State.reportEnd_kept K (State.idleChannel_kept K h ch) _
  · exact State.idleChannel_kept K h ch

include K in
theorem State.aouMove_kept {s : State} (h : P s) (a b : Coord) : P (s.aouMove a b) := by
  unfold State.aouMove
  refine foldl_kept P (fun t ch ht => ?_) _ h
  split
  · exact State.idleChannel_kept K ht ch
  · exact ht

include K in
theorem State.cutPulse_kept {s : State} (h : P s) (k : Coord) : P (s.cutPulse k) := by
  unfold State.cutPulse
  split
  · exact State.settleSpill_kept K (State.pulseRequest_kept K h ..)
  · exact h

/-! ### Sighting windows -/

include K in
theorem State.setWindows_kept {s : State} (h : P s) (n : Fin 4) (ws : List Window) : P (s.setWindows n ws) :=
  K.scu _ _ ⟨rfl, rfl, fun ok => ok⟩ h

include K in
theorem State.takeSightClaim_kept {s : State} (h : P s) : P s.takeSightClaim := by
  unfold State.takeSightClaim
  split
  · exact h
  · exact K.claim _ _ _ _ (by decide) h

include K in
theorem State.countMiss_kept {s : State} (h : P s) (n : Fin 4) (w : Window) : P (s.countMiss n w) := by
  have h1 := State.noticeMark_kept K (K.scu s { s.scu with misses := holdInc 255 s.scu.misses }
    ⟨rfl, rfl, fun ok => holdInc_le ok⟩ h) .sightMissed w.mark (packTop n.val (BitVec.ofNat 32 (holdInc 255 s.scu.misses)))
  unfold State.countMiss
  simp only
  split
  · exact State.takeSightClaim_kept K h1
  · exact h1

include K in
theorem State.openWindow_kept {s : State} (h : P s) (n : Fin 4) (w : Window) : P (s.openWindow n w) := by
  unfold State.openWindow
  split
  · exact State.countMiss_kept K (State.windowClosed_kept K h ..) ..
  · exact State.setWindows_kept K h ..

include K in
theorem State.missWindow_kept {s : State} (h : P s) (nw : Fin 4 × Window) : P (s.missWindow nw) :=
  State.countMiss_kept K (State.settleSpill_kept K (State.windowClosed_kept K (State.setWindows_kept K h ..) ..)) ..

include K in
theorem State.scuMove_kept {s : State} (h : P s) (a b : Coord) : P (s.scuMove a b) :=
  foldl_kept P (fun _ nw ht => State.missWindow_kept K ht nw) _ h

/-! ### Closes of roll sets -/

include K in
theorem State.carryInto_kept {s : State} (h : P s) (r : RollSet) (es : List RollEntry) : P (s.carryInto r es).1 :=
  State.dropAll_kept K _ h _

@[simp] theorem State.rmu_carryInto (s : State) (r : RollSet) (es : List RollEntry) :
    (s.carryInto r es).1.rmu = s.rmu := State.rmu_dropAll ..

@[simp] theorem length_insertBefore (e : RollEntry) (xs : List RollEntry) :
    (insertBefore e xs).length = xs.length + 1 := by
  induction xs with
  | nil => rfl
  | cons x xs ih => simp only [insertBefore]; split <;> simp [ih]

theorem length_carried (es xs : List RollEntry) :
    (es.foldr insertBefore xs).length = es.length + xs.length := by
  induction es with
  | nil => simp
  | cons e es ih => simp [ih]; omega

theorem State.carryInto_set {s : State} {r : RollSet} (h : SetOk r) (es : List RollEntry) :
    SetOk (s.carryInto r es).2 := by
  refine State.dropAll_set _ ⟨h.number, ?_, h.dropped⟩
  simp only [length_carried, List.length_take]
  have := h.entries
  omega

/-- What stays of an entry in a closed set ends in it (R122). -/
theorem keptPart_inside {len : Nat} {e k : RollEntry} (h : keptPart len e = some k) :
    k.position + k.extent ≤ len := by
  unfold keptPart at h
  split at h
  · cases h
  · split at h
    · cases h; assumption
    · cases h; simp only; omega

theorem endLength_range (a k : Coord) : 1 ≤ endLength a k ∧ endLength a k ≤ 2147483647 := by
  unfold endLength
  split
  · rename_i h
    simpa only [before, Bool.and_eq_true, decide_eq_true_eq] using h
  · decide

theorem State.closeAt_closed {s : State} {cur : RollSet} (h : SetOk cur) (fol : RollSet) (k : Coord) :
    ClosedOk (s.closeAt cur fol k).2.1 := by
  refine ⟨⟨h.number, (List.length_filterMap_le _ _).trans h.entries, h.dropped⟩, endLength_range _ _, ?_⟩
  intro e he
  obtain ⟨e0, _, hk⟩ := List.mem_filterMap.mp he
  exact keptPart_inside hk

include K in
theorem State.closeAt_kept {s : State} (h : P s) (cur fol : RollSet) (k : Coord) : P (s.closeAt cur fol k).1 :=
  State.carryInto_kept K h ..

@[simp] theorem State.rmu_closeAt (s : State) (cur fol : RollSet) (k : Coord) :
    (s.closeAt cur fol k).1.rmu = s.rmu := State.rmu_carryInto ..

theorem State.closeAt_set {s : State} (cur : RollSet) {fol : RollSet} (h : SetOk fol) (k : Coord) :
    SetOk (s.closeAt cur fol k).2.2 := State.carryInto_set h _

/-- Roll sets stay good where good closed sets replace the closed-set queue. -/
theorem RmuOk.setClosed {r : Rmu} (ok : RmuOk r) {cs : List ClosedSet} (hl : cs.length ≤ 4)
    (hm : ∀ x ∈ cs, ClosedOk x) (p : Option (Nat × Time)) : RmuOk { r with closed := cs, pendingRead := p } :=
  ⟨ok.nextSet, hl, hm, ok.current, ok.next⟩

include K in
theorem State.appendClosed_kept {s : State} (h : P s) {c : ClosedSet} (hc : G → ClosedOk c) :
    P (s.appendClosed c) := by
  unfold State.appendClosed
  split
  · rename_i oldest rest e
    split
    · refine K.rmu _ _ rfl (fun g => RmuOk.setClosed (K.rmuOk g s h) ?_ ?_ _)
        (State.notice_kept K (K.fault _ _ _ (K.count _ _ h)) ..)
      · have := (K.rmuOk g s h).room
        rw [e] at this
        simpa using this
      · intro x hx
        rcases List.mem_append.mp hx with hx | hx
        · exact (K.rmuOk g s h).closed x (e ▸ List.mem_cons_of_mem _ hx)
        · rw [List.mem_singleton.mp hx]; exact hc g
    · refine K.rmu _ _ rfl (fun g => RmuOk.setClosed (K.rmuOk g s h) ?_ ?_ _) h
      · simp only [List.length_append, List.length_singleton]; omega
      · intro x hx
        rcases List.mem_append.mp hx with hx | hx
        · exact (K.rmuOk g s h).closed x hx
        · rw [List.mem_singleton.mp hx]; exact hc g
  · refine K.rmu _ _ rfl (fun g => RmuOk.setClosed (K.rmuOk g s h) (Nat.le_of_ble_eq_true rfl) ?_ _) h
    intro x hx
    rw [List.mem_singleton.mp hx]; exact hc g

/-- Appending a closed set leaves the current set, the NEXT set and the numbering. -/
theorem State.rmu_appendClosed (s : State) (c : ClosedSet) :
    ∃ cs p, (s.appendClosed c).rmu = { s.rmu with closed := cs, pendingRead := p } := by
  unfold State.appendClosed
  split
  · split
    · exact ⟨_, _, rfl⟩
    · exact ⟨_, _, rfl⟩
  · exact ⟨_, _, rfl⟩

theorem ClosedOk.announce {c : ClosedSet} (h : ClosedOk c) (a : Announcement) :
    ClosedOk { c with announcement := a } := ⟨h.set, h.length, h.inside⟩

include K in
theorem State.announce_kept {s : State} (h : P s) (n : Nat) (a : Announcement) : P (s.announce n a) := by
  refine K.rmu _ _ rfl (fun g => RmuOk.setClosed (K.rmuOk g s h) ?_ ?_ _) h
  · simpa using (K.rmuOk g s h).room
  · intro c hc
    obtain ⟨d, hd, rfl⟩ := List.mem_map.mp hc
    split
    · exact ((K.rmuOk g s h).closed d hd).announce a
    · exact (K.rmuOk g s h).closed d hd

include K in
theorem State.reportAbandoned_kept {s : State} (h : P s) (f : OutFrame) : P (s.reportAbandoned f) := by
  unfold State.reportAbandoned
  split
  · exact State.announce_kept K h ..
  all_goals exact h

include L in
theorem State.announceClose_kept {s : State} (h : P s) (n : Nat) (k : Coord) (own : Bool) :
    P (s.announceClose n k own) := by
  unfold State.announceClose
  split
  · split
    · rename_i hf
      exact State.announce_kept L.toKeptByMarks (L.cutover _ _ _ hf h) ..
    · exact State.notice_kept L.toKeptByMarks (State.announce_kept L.toKeptByMarks h ..) ..
  · exact h

include K in
theorem State.replaceCurrent_kept {s : State} (h : P s) {c : ClosedSet} {fol : RollSet}
    (hc : G → ClosedOk c) (hf : G → SetOk fol) : P (s.replaceCurrent c fol) := by
  have h1 := State.appendClosed_kept K h hc
  unfold State.replaceCurrent
  refine K.rmu _ _ rfl (fun g => ⟨(K.rmuOk g _ h1).nextSet, (K.rmuOk g _ h1).room, (K.rmuOk g _ h1).closed, fun x e => ?_, fun x e => ?_⟩) h1
  · cases e; exact hf g
  · cases e

include L in
/-- A close, where the sets it starts from are good. -/
theorem State.closeSet_kept {s : State} (h : P s) {cur fol : RollSet} (k : Coord) (own : Bool)
    (hc : G → SetOk cur) (hf : G → SetOk fol) : P (s.closeSet cur fol k own) :=
  State.notice_kept L.toKeptByMarks (State.announceClose_kept L (State.cutPulse_kept L.toKeptByMarks
    (State.replaceCurrent_kept L.toKeptByMarks (State.closeAt_kept L.toKeptByMarks h cur fol k) (fun g => State.closeAt_closed (hc g) fol k)
      (fun g => State.closeAt_set cur (hf g) k)) k) _ k own) ..

theorem length_movedEntries (es : List RollEntry) (a b : Coord) :
    (es.map (fun e => e.moved a b)).length = es.length := List.length_map ..

include K in
theorem State.moveCut_kept {s : State} (h : P s) (cur nxt : RollSet) (k : Coord) : P (s.moveCut cur nxt k).1 :=
  State.enterAll_kept K _ (State.enterAll_kept K _ h _) _

theorem State.moveCut_current {s : State} {cur : RollSet} (h : SetOk cur) (nxt : RollSet) (k : Coord) :
    SetOk (s.moveCut cur nxt k).2.1 :=
  State.enterAll_set _ ⟨h.number, (List.length_filter_le _ _).trans h.entries, h.dropped⟩

theorem State.moveCut_next {s : State} (cur : RollSet) {nxt : RollSet} (h : SetOk nxt) (k : Coord) :
    SetOk (s.moveCut cur nxt k).2.2 :=
  State.enterAll_set _ ⟨h.number, by simpa using (List.length_filter_le _ _).trans h.entries, h.dropped⟩

@[simp] theorem State.rmu_moveCut (s : State) (cur nxt : RollSet) (k : Coord) :
    (s.moveCut cur nxt k).1.rmu = s.rmu := by
  simp [State.moveCut]

include L in
theorem State.closeMoved_kept {s : State} (h : P s) {cur nxt : RollSet} (k : Coord) (own : Bool)
    (hc : G → SetOk cur) (hn : G → SetOk nxt) : P (s.closeMoved cur nxt k own) :=
  State.closeSet_kept L (State.moveCut_kept L.toKeptByMarks h cur nxt k) k own (fun g => State.moveCut_current (hc g) nxt k)
    (fun g => State.moveCut_next cur (hn g) k)

include L in
theorem State.rmuMove_kept {s : State} (h : P s) (a b : Coord) : P (s.rmuMove a b) := by
  unfold State.rmuMove
  split
  · rename_i cur nxt hc hn
    split
    · split
      · exact State.closeSet_kept L h _ _ (fun g => (L.rmuOk g s h).current _ hc) (fun g => (L.rmuOk g s h).next _ hn)
      · exact h
    · exact h
  · exact h

/-! ### Movements -/

include K in
theorem State.handOver_kept {s : State} (h : P s) (r : MarkRecord) (i : Nat) (a : Action) : P (s.handOver r i a) := by
  unfold State.handOver
  split
  · split
    · exact State.setAction_kept K (State.pulseRequest_kept K h ..) ..
    · exact State.pulseRequest_kept K (State.setAction_kept K h ..) ..
  · exact State.setAction_kept K (State.setLevel_kept K h _) ..
  · exact State.setAction_kept K (State.clearLevel_kept K h _) ..
  · exact State.setAction_kept K (State.toggleLevel_kept K h _) ..
  · exact State.fireHold_kept K h ..
  · exact State.openWindow_kept K (State.setAction_kept K h ..) ..
  · exact State.fireRecord_kept K h ..
  · exact State.setAction_kept K (State.noticeMark_kept K h ..) ..
  all_goals exact State.setAction_kept K h ..

include K in
theorem State.fireAction_kept {s : State} (h : P s) (u i : Nat) : P (s.fireAction u i) := by
  unfold State.fireAction
  split
  · exact h
  · split
    · exact h
    · split
      · exact State.examineRecord_kept K (State.handOver_kept K h ..) _
      · exact h

include K in
theorem State.mkeMove_kept {s : State} (h : P s) (a b : Coord) : P (s.mkeMove a b) :=
  State.settleSpill_kept K (foldl_kept P (fun _ f ht => State.fireAction_kept K ht f.uid f.idx) _ h)

include L in
theorem State.blockMove_kept {s : State} (h : P s) (a b : Coord) (x : MoveBlock) : P (s.blockMove a b x) := by
  unfold State.blockMove
  split
  · exact State.mkeMove_kept L.toKeptByMarks h a b
  · exact State.scuMove_kept L.toKeptByMarks h a b
  · exact State.aouMove_kept L.toKeptByMarks h a b
  · exact State.rmuMove_kept L h a b

include L in
/-- A movement keeps what its parts keep. -/
theorem State.movedFrom_kept {s : State} (h : P s) (a : Coord) (o : List MoveBlock) : P (s.movedFrom a o) := by
  unfold State.movedFrom
  split
  · exact foldl_kept P (fun _ x ht => State.blockMove_kept L ht a _ x) _ h
  · exact h

/-! ### The frame of all of these -/

theorem SameNumbering.trans {a b c : Mke} (h : SameNumbering a b) (k : SameNumbering b c) : SameNumbering a c :=
  ⟨k.origins.trans h.origins, k.nextNumber.trans h.nextNumber, k.freshPending.trans h.freshPending,
    k.lastPosted.trans h.lastPosted, k.freeUsed.trans h.freeUsed⟩

theorem WebFrame.refl (s : State) : WebFrame s s :=
  ⟨rfl, ⟨rfl, rfl, rfl, rfl, rfl⟩, rfl, rfl, rfl, rfl, rfl, rfl, ⟨rfl, rfl, rfl, rfl, rfl⟩, rfl, rfl, rfl⟩

theorem Lpt.slot_place (l : Lpt) (n : Notice) : (l.place n).slot = l.slot := by
  unfold Lpt.place; split <;> rfl

theorem Lbi.same_queueNormal (l : Lbi) (f : OutFrame) :
    l.queueNormal f = { l with urgent := (l.queueNormal f).urgent, normal := (l.queueNormal f).normal } := by
  unfold Lbi.queueNormal; split <;> rfl

theorem Lbi.same_queueClaim (l : Lbi) (n : Nat) (f : OutFrame) :
    l.queueClaim n f = { l with urgent := (l.queueClaim n f).urgent, normal := (l.queueClaim n f).normal } := by
  unfold Lbi.queueClaim; split
  · split <;> rfl
  · rfl

theorem Lbi.same_trans {a b c : Lbi} (h : b = { a with urgent := b.urgent, normal := b.normal })
    (k : c = { b with urgent := c.urgent, normal := c.normal }) :
    c = { a with urgent := c.urgent, normal := c.normal } := by
  rw [k, h]

/-- The frame of marks, actions, pulses, windows and closes, kept by every part. -/
theorem webFrame_kept (s : State) : KeptByParts False (WebFrame s) where
  place _ _ h := ⟨h.lcu, h.mke, h.filtered, h.captures, h.lastHeard, h.tail, h.nextSet, h.lbi, h.stc,
    (Lpt.slot_place ..).trans h.slot, h.pins, h.pending⟩
  count _ _ h := ⟨h.lcu, h.mke, h.filtered, h.captures, h.lastHeard, h.tail, h.nextSet, h.lbi,
    ⟨h.stc.station, h.stc.config, h.stc.locked, h.stc.join, h.stc.now⟩, h.slot, h.pins, h.pending⟩
  fault _ _ _ h := ⟨h.lcu, h.mke, h.filtered, h.captures, h.lastHeard, h.tail, h.nextSet, h.lbi,
    ⟨h.stc.station, h.stc.config, h.stc.locked, h.stc.join, h.stc.now⟩, h.slot, h.pins, h.pending⟩
  mke _ _ hm h := ⟨h.lcu, h.mke.trans hm.numbering, h.filtered, h.captures, h.lastHeard, h.tail, h.nextSet, h.lbi,
    h.stc, h.slot, h.pins, h.pending⟩
  aou _ _ _ h := ⟨h.lcu, h.mke, h.filtered, h.captures, h.lastHeard, h.tail, h.nextSet, h.lbi, h.stc, h.slot, h.pins,
    h.pending⟩
  scu _ _ hx h := ⟨h.lcu, h.mke, hx.filtered.trans h.filtered, hx.captures.trans h.captures, h.lastHeard, h.tail,
    h.nextSet, h.lbi, h.stc, h.slot, h.pins, h.pending⟩
  rmuOk g := g.elim
  rmu _ _ hn _ h := ⟨h.lcu, h.mke, h.filtered, h.captures, h.lastHeard, h.tail, hn.trans h.nextSet, h.lbi, h.stc,
    h.slot, h.pins, h.pending⟩
  claim _ _ _ _ _ h := ⟨h.lcu, h.mke, h.filtered, h.captures, h.lastHeard, h.tail, h.nextSet,
    Lbi.same_trans h.lbi (Lbi.same_queueClaim ..), h.stc, h.slot, h.pins, h.pending⟩
  cutover _ _ _ _ h := ⟨h.lcu, h.mke, h.filtered, h.captures, h.lastHeard, h.tail, h.nextSet,
    Lbi.same_trans h.lbi (Lbi.same_queueNormal ..), h.stc, h.slot, h.pins, h.pending⟩

/-- The frame of a movement. -/
theorem State.movedFrom_frame (s : State) (a : Coord) (o : List MoveBlock) : WebFrame s (s.movedFrom a o) :=
  State.movedFrom_kept (webFrame_kept s) (WebFrame.refl s) a o

/-- The frame of a mark offered to the queue. -/
theorem State.offerMark_frame (s : State) (o : MarkOffer) : WebFrame s (s.offerMark o).1 :=
  State.offerMark_kept (webFrame_kept s).toKeptByMarks (WebFrame.refl s) o

/-- The frame of the spill record's entry. -/
theorem State.settleSpill_frame (s : State) : WebFrame s s.settleSpill :=
  State.settleSpill_kept (webFrame_kept s).toKeptByMarks (WebFrame.refl s)

/-- The frame of a close. -/
theorem State.closeSet_frame (s : State) (cur fol : RollSet) (k : Coord) (own : Bool) :
    WebFrame s (s.closeSet cur fol k own) :=
  State.closeSet_kept (webFrame_kept s) (WebFrame.refl s) k own False.elim False.elim

end Sys2Proof.Machine
end

