-- ==== Sys2Proof/Tests/Slice0.lean ====
section
/-! SUPPORT. Tests: operands that the check refuses, examples worked out from the spec, and for every statement with
hypotheses a state and operands that meet them. -/

namespace Sys2Proof.Tests

open Sys2Proof Sys2Proof.Machine

/-! ### States to test on -/

/-- Settings to test with: station 1 of 4 lanes, 3 wu for 2 counts, the roll map enabled and following cuts. Channel 2
counts in ms. Sensor 1 is a SOURCE, sensor 2 sights, sensor 3 cuts, sensor 4 is off. Kind 0 records at once, kind 1
pulses channel 1 at 100 wu for 20. -/
def cfg : Settings := { Settings.blank with
  station := 1
  path := 10
  ratioN := 3
  ratioD := 2
  laneCount := 4
  rollMap := true
  followCuts := true
  trimGain := .half
  trimLimit := 50
  outputs := ⟨⟨.low, .wu⟩, ⟨.low, .ms⟩, ⟨.high, .wu⟩, ⟨.high, .ms⟩⟩
  sensors := ⟨⟨.rising, 40, .source 0 3⟩, ⟨.both, 0, .sight⟩, ⟨.falling, 0, .cut⟩, ⟨.both, 0, .off⟩⟩
  table := [[⟨.record, none, 0, 1, false⟩], [⟨.pulse, some 0, 100, 20, false⟩], [], [], [], [], [], []] }

/-- An OPEN set of a number, from a coordinate. -/
def openSet (number : Nat) (start : Coord) : RollSet := ⟨number, start, none, none, false, false, false, 0, []⟩

/-- The set of a number, closed at 50 after 50 wu. -/
def closedSet (number : Nat) : ClosedSet := ⟨{ openSet number 0 with cut := some 50 }, 50, 0, .queued, false⟩

/-- A part configured with the settings above, in a station state, at coordinate 100, on an idle line. -/
def part (st : StationState) : State := { State.reset with
  lcu := { Lcu.cold with levels := some (.low, .low), coord := 100, raw := 70, synced := true }
  scu := { Scu.cold with filtered := .all (some .low) }
  rmu := { Rmu.cold with current := some (openSet 1 0), nextSet := 2 }
  lbi := { Lbi.cold with mode := .ready, line := .idle }
  stc := { Stc.cold with station := st, config := some cfg, locked := true, now := 1000 } }

/-- The part with one inbound frame. -/
def heard (st : StationState) (f : LineFrame) : State :=
  (part st).withLbi { (part st).lbi with inbound := [⟨f, 60⟩] }

/-- The part with a loopback. -/
def looped (st : StationState) (f : LineFrame) : State :=
  (part st).withLbi { (part st).lbi with loopback := some ⟨f, 60, 0⟩ }

/-- A state with a taken request in its slot. -/
def asked (s : State) (r : Request) (p : List Byte) : State := s.withLpt { s.lpt with slot := .preparing r.code p }

/-- A state with a hold table. -/
def holding (s : State) (table : List HoldRecord) : State := s.withHtu { s.htu with table := table }

/-- A state with a frame in the send slot and under way. -/
def sending (s : State) (f : OutFrame) (failed : Nat) : State :=
  s.withLbi { s.lbi with slot := some ⟨f, failed⟩, attempt := some (s.lineFrame f), line := .frame }

/-- The part while it reads a frame. -/
def reading (st : StationState) : State := (part st).withLbi { (part st).lbi with line := .frame }

/-- A MARK frame of station 2: number, epoch, kind, FRESH, position. -/
def mark (number : MarkNo) (epoch : Epoch) (kind : Fin 8) (fresh : Bool) (position : Coord) : LineFrame :=
  ⟨.mark, 2, markPayload ⟨number, epoch, kind, fresh, position, 1, 0⟩⟩

/-- The part with an origin table entry for station 2. -/
def tracking (s : State) (last : MarkNo) (position : Coord) : State :=
  s.withMke { s.mke with origins := .unknown :: .tracking last position :: List.replicate 22 .unknown }

/-- The part with records in its queue. -/
def withQueue (queue : List MarkRecord) : State :=
  (part .active).withMke { (part .active).mke with queue := queue, nextUid := queue.length }

/-- A record of kind 1, from station 2, with a mark number and actions. -/
def record (uid : Nat) (number : MarkNo) (actions : List Action) : MarkRecord :=
  ⟨uid, 2, some number, 1, 100, 1, 0, false, false, true, false, actions⟩

/-- An action of a type with a parameter, its trigger position at 200. -/
def action (type : ActionType) (param : Option (Fin 4)) (state : ActionState) : Action :=
  ⟨type, param, 200, 200, 20, state⟩

/-- A queue with one record. -/
def withRecord (a : Action) : State := withQueue [record 0 9 [a]]

theorem withRecord_ok (a : Action) : MkeOk (withRecord a).mke :=
  ⟨Nat.one_le_ofNat, List.pairwise_singleton _ _, fun _ hr => List.mem_singleton.mp hr ▸ Nat.one_pos, nofun⟩

/-- The part with set 1 CLOSING at 150 and set 2 NEXT. -/
def closing : State := (part .active).withRmu { (part .active).rmu with
  current := some { openSet 1 0 with cut := some 150 }, next := some (openSet 2 150), nextSet := 3 }

/-- A configuration block that every check admits: every field at its lowest value. -/
def block : List Byte :=
  [1, 0, 0, 0, 1, 0, 1, 0, 1, 0, 0, 0, 1, 0, 0, 0, 0, 0, 0, 0, 1, 0, 0, 100, 0, 10, 0, 50, 10] ++ List.replicate 340 0

/-! ### Operands that the check refuses -/

theorem test_refuses_an_order_without_a_block :
    (Instr.encoderCount .enca [.mke, .scu, .aou]).wellFormed = false ∧
    (Instr.sensorEdge 0 .high [.mke, .scu, .aou, .aou]).wellFormed = false := by decide

theorem test_refuses_an_order_with_a_block_twice :
    (Instr.encoderCount .encb [.mke, .scu, .aou, .rmu, .rmu]).wellFormed = false ∧
    (Instr.sensorEdge 3 .low [.mke, .mke, .scu, .aou, .rmu]).wellFormed = false := by decide

theorem test_refuses_an_origin_off_the_line :
    (Instr.claimStale 0).wellFormed = false ∧ (Instr.claimStale 25).wellFormed = false ∧
    (Instr.claimStale 1).wellFormed = true ∧ (Instr.claimStale 24).wellFormed = true := by decide

theorem test_refuses_bits_without_a_start_bit :
    (Instr.receiveError []).wellFormed = false ∧ (Instr.receiveError [true, false]).wellFormed = false ∧
    (Instr.validFrameEnd [] .listed).wellFormed = false ∧
    (Instr.validFrameEnd [true] .listed).wellFormed = false := by decide

theorem test_admits_the_commands_of_the_rules :
    (Instr.encoderCount .enca [.rmu, .aou, .scu, .mke]).wellFormed = true ∧
    (Instr.receiveError [false]).wellFormed = true ∧ (Instr.coldReset .high).wellFormed = true := by decide

/-! ### Examples worked out from the rules -/

/-- 3 wu for 2 counts: from remainder 0 the coordinate moves by 1 and then by 2 (R5). -/
theorem test_two_forward_counts_move_three : ∃ u v : State,
    exec (.encoderCount .enca []) (part .active) = .next u ∧ u.lcu.coord = 101 ∧ u.lcu.remainder = 1 ∧
    exec (.encoderCount .encb []) u = .next v ∧ v.lcu.coord = 103 ∧ v.lcu.remainder = 0 ∧ v.lcu.raw = 72 :=
  ⟨_, _, rfl, rfl, rfl, rfl, rfl, rfl, rfl⟩

/-- The example of R72: with gain HALF, e = +7 gives t = −3 and e = −7 gives t = +3. -/
theorem test_trim_rounds_toward_zero :
    trimOf .half 7 = -3 ∧ trimOf .half (-7) = 3 ∧ trimOf .quarter 3 = 0 ∧ trimOf .full 1 = -1 := by decide

/-- The part at 120 on its way from 100, a pulse on channel 1 with its end at 120. -/
def pulsingAt : State :=
  let s := (part .active).withLcu { (part .active).lcu with coord := 120 }
  s.withAou (s.aou.put 0 (.pulsing 120) 2)

/-- The movement first: the pulse ends and the new one starts, two edges; the pulse first: it merges, and none (R55). -/
theorem test_new_edge_between_two_pulses :
    ((pulsingAt.aouMove 100 120).pulseRequest 0 110 20 none).aou.edges.get 0 = pulsingAt.aou.edges.get 0 + 2 ∧
    ((pulsingAt.pulseRequest 0 110 20 none).aouMove 100 120).aou.edges.get 0 = pulsingAt.aou.edges.get 0 := by decide

/-- A PULSE and a CLEAR at one position make two edges, and the pin is as it was (03, section 3.1, note 2). -/
theorem test_momentary_pulse_makes_two_edges :
    let s := (part .active).pulseRequest 0 100 20 none
    (s.clearLevel 0).aou.edges.get 0 = 2 ∧ (s.clearLevel 0).outputLevel 0 = .low ∧ s.outputLevel 0 = .high := by decide

/-- Modular order at the ends of its range: one half the range ahead is after, more is not. -/
theorem test_modular_order :
    before 0 1 = true ∧ before 0 0x7FFFFFFF = true ∧ before 0 0x80000000 = false ∧ before 0xFFFFFFFF 0 = true ∧
    before 5 5 = false := by decide

/-- A CENSUS frame of station 1: class 1, kind 0100, origin 00001, length 0000, with a stuff bit after five zeros. -/
theorem test_census_begins_as_its_fields :
    ((⟨.census, 1, []⟩ : LineFrame).wire.take 16) =
      [false, true, false, true, false, false, false, false, false, true, false, true, false, false, false, false]
      := by decide +kernel

/-- A frame with one bit changed is not read as the frame sent (R144). -/
theorem test_check_finds_a_changed_bit :
    readFrame ((⟨.release, 3, [2]⟩ : LineFrame).wire.set 16 true) ≠ .valid ⟨.release, 3, [2]⟩ := by decide +kernel

/-- Six equal bits are a fault of cause 1 (R152). -/
theorem test_six_equal_bits_are_a_stuff_fault : readFrame (List.replicate 6 false) = .fault 1 := by decide

/-- One retirement lets the spill record in as one BLIND record (R31). -/
theorem test_spill_enters_at_a_retirement :
    let s := (part .active).withMke { Mke.cold with spill := some ⟨200, 300, 2⟩, retired := 1 }
    let c := s.withStc { s.stc with config := some { cfg with table := cfg.table.set 7 [⟨.note, none, 50, 1, false⟩] } }
    c.settleSpill.mke.spill = none ∧
    c.settleSpill.mke.queue.map (fun r => (r.origin, r.position, r.extent, r.spill)) = [(0, 200, 100, true)] :=
  ⟨rfl, rfl⟩

/-- A configuration block of lowest values passes; the first failing field is found by its index (R167). -/
theorem test_first_failing_field :
    firstFailing block = none ∧ firstFailing (block.set 0 25) = some 1 ∧ firstFailing (block.set 73 5) = some 48 := by
  decide +kernel

/-- The records of READ STATE, READ COUNTERS and TAKE NOTICES have the lengths of R189. -/
theorem test_record_lengths :
    (part .active).picture.length = 64 ∧ (part .active).counterBytes.length = 24 ∧
    (Notice.bytes ⟨.gap, 7, none, some 2, some 9, none⟩).length = 17 := by decide

/-- A request frame sums to 0 and is taken as itself (R177, R179). -/
theorem test_request_frame_is_taken :
    examine (requestFrame 0x21 [2]) = some (0x21, [2]) ∧ requestFrame 0x21 [2] = [0x21, 0, 1, 2, 0xDC] := by decide

/-- Commands whose event cannot arise change nothing (log 2). -/
theorem test_no_event_changes_nothing :
    exec .yieldGapEnd (part .active) = .next (part .active) ∧ exec .zeroLoopback (part .active) = .next (part .active) ∧
    exec .readRoll (part .active) = .next (part .active) := ⟨rfl, rfl, rfl⟩

/-! ### States and operands that meet the hypotheses of the statements, clause by clause -/

theorem test_witness_StepRunsTheCommandAtTheFront :
    ((part .active).withPending [.lineIdle, .zero]).pending = [.lineIdle, .zero] ∧ State.reset.pending = [] :=
  ⟨rfl, rfl⟩

/-- The part held in reset. -/
def inReset : State := State.reset.withPins { State.reset.pins with resetn := .low }

theorem test_witness_HeldInResetNothingActs :
    inReset.pins.resetn = .low ∧ (∀ lcs, Instr.encoderError ≠ .coldReset lcs) ∧
    Instr.encoderError ≠ .resetnHeldLow ∧ ∃ t, exec .encoderError inReset = .next t :=
  ⟨rfl, fun _ => nofun, by decide, _, rfl⟩

/-- A part that meets every invariant of a step, with a command waiting. -/
def good : State := (part .active).driven.withPending [.encoderCount .enca [.mke, .scu, .aou, .rmu]]

/-- The good part with the edges its pins show: channels 3 and 4 rest high. -/
def goodEdged : State := good.withAou { good.aou with edges := ⟨0, 0, 1, 1⟩ }

theorem test_witness_StepKeepsPins : PinsDriven good ∧ LevelsFollowPins good ∧ EdgesFollowPins goodEdged ∧
    good.live = true ∧ good.configured = true ∧ (∃ t, step good = .next t) ∧ ∃ t, step goodEdged = .next t :=
  ⟨rfl, fun _ _ => rfl, fun _ => by decide, rfl, rfl, ⟨_, rfl⟩, _, rfl⟩

theorem test_witness_StepKeepsBounds : Bounded good ∧ ∃ t, step good = .next t := by
  refine ⟨⟨⟨by decide, by decide, by decide⟩, by decide, ⟨by decide, List.Pairwise.nil, ?_, ?_⟩, rfl, ?_,
    Nat.zero_le _, by decide, ⟨by decide, by decide, ?_, ?_, ?_⟩, ⟨by decide, by decide, ?_⟩, ⟨by decide, by decide,
    by decide, by decide, by decide, by decide, by decide, by decide⟩, ⟨by decide, by decide⟩⟩, _, rfl⟩
  · intro r h; cases h
  · intro sp h; cases h
  · intro i; fin_cases i <;> decide
  · intro c h; cases h
  · intro c h; cases h; exact ⟨by decide, by decide, by decide⟩
  · intro c h; cases h
  · intro x h; cases h

/-- A good part that holds two claims. -/
def goodHeld : State :=
  (holding (part .active) [⟨1, 0, .operator, none, false⟩, ⟨2, 3, .sight, none, true⟩]).withPending [.refreshExpiry]

theorem test_witness_StepKeepsHoldTable : HoldsOk goodHeld ∧ ∃ t, step goodHeld = .next t :=
  ⟨⟨⟨by decide, by decide⟩, by decide, by decide, by decide, by decide, by decide⟩, _, rfl⟩

/-- A good part with every place of the outbound queue taken, one CLAIMS frame waiting and CENSUS deferred. -/
def goodQueue : State :=
  (part .active).withLbi { (part .active).lbi with
    normal := .claims :: List.replicate 11 (.cutover 5 1), deferred := [.census] }

theorem test_witness_StepKeepsOutboundQueue :
    OutboundOk (goodQueue.withPending [.attemptStart]).lbi ∧
    ∃ t, step (goodQueue.withPending [.attemptStart]) = .next t :=
  ⟨⟨by decide, by decide, by decide, by decide, by decide, by decide⟩, _, rfl⟩

/-- A good part with one notice. -/
def goodNoticed : State := ((part .active).notice .gap).driven.withPending [.timebaseAdvance]

theorem test_witness_RunokAndAttn : PinsDriven goodNoticed ∧
    ∃ t, step goodNoticed = .next t ∧ t.pins.runok = .high ∧ t.pins.attn = .high := ⟨rfl, _, rfl, rfl, rfl⟩

theorem test_witness_OnlyAColdResetTakesBack :
    (∀ lcs, Instr.encoderError ≠ .coldReset lcs) ∧ CountersOk (part .active).stc.counters ∧
    (∃ t, exec .encoderError (part .active) = .next t ∧ t.stc.counters.encoderErrors = 1) ∧
    (∀ lcs, Instr.restart ≠ .coldReset lcs) ∧ (∃ t, exec .restart (part .active) = .next t) ∧
    (part .active).stc.station ≠ .unconfigured ∧ State.reset.stc.station = .unconfigured ∧
    (∃ t, exec .timebaseAdvance State.reset = .next t) ∧ Instr.timebaseAdvance ≠ .configure :=
  ⟨fun _ => nofun, ⟨by decide, by decide, by decide, by decide, by decide, by decide, by decide, by decide⟩,
    ⟨_, rfl, rfl⟩, fun _ => nofun, ⟨_, rfl⟩, by decide, rfl, ⟨_, rfl⟩, by decide⟩

/-- A SILENT part. -/
def silent : State := (part .silent).withLbi { (part .silent).lbi with mode := .mute }

theorem test_witness_SilentUntilColdReset :
    (∀ lcs, Instr.lineIdle ≠ .coldReset lcs) ∧ (∃ t, exec .lineIdle silent = .next t) ∧
    silent.stc.station = .silent ∧ silent.lbi.mode = .mute ∧ silent.lbi.attempt = none ∧ silent.lbi.slot = none ∧
    silent.lbi.urgent = [] ∧ silent.lbi.normal = [] ∧ silent.lbi.deferred = [] :=
  ⟨fun _ => nofun, ⟨_, rfl⟩, rfl, rfl, rfl, rfl, rfl, rfl, rfl⟩

theorem test_witness_ForwardCountScales :
    EncoderHeld (part .active) (.low, .low) ∧ ForwardTurn (part .active).cfg.sense (.low, .low) (.high, .low) ∧
    (((part .active).pins.toggle .enca).enca, ((part .active).pins.toggle .enca).encb) = (.high, .low) ∧
    1 ≤ (part .active).cfg.ratioD ∧
    before (part .active).lcu.coord ((part .active).lcu.coord + BitVec.ofNat 32 ((0 + 3) / 2)) = true ∧
    wellFormedOrder [.rmu, .mke, .aou, .scu] = true :=
  ⟨⟨rfl, rfl, rfl⟩, Or.inl ⟨rfl, rfl⟩, rfl, by decide, by decide, by decide⟩

/-- The part with the reverse run at its top. -/
def backed : State := (part .active).withLcu { (part .active).lcu with reverseRun := 4294967295, remainder := 1 }

theorem test_witness_ReverseCountScales :
    EncoderHeld backed (.low, .low) ∧ ReverseTurn backed.cfg.sense (.low, .low) (.low, .high) ∧
    ((backed.pins.toggle .encb).enca, (backed.pins.toggle .encb).encb) = (.low, .high) ∧
    1 ≤ backed.cfg.ratioD ∧ backed.lcu.remainder < backed.cfg.ratioD ∧ backed.lcu.reverseRun ≤ 4294967295 ∧
    (1 ≤ 2 ∧ 1 < 2 ∧ reverseStep ((1 + 3) % 2) 3 2 = (1 + 3) / 2) :=
  ⟨⟨rfl, rfl, rfl⟩, Or.inl ⟨rfl, rfl⟩, rfl, by decide, by decide, by decide, by decide⟩

theorem test_witness_EncoderErrorMakesNoCount :
    EncoderHeld (part .active) ((part .active).pins.enca, (part .active).pins.encb) := ⟨rfl, rfl, rfl⟩

/-- The part with no filtered level for sensor 1. -/
def unfiltered : State := (part .active).withScu { (part .active).scu with filtered := .all none }

/-- The part turned back. -/
def reversed : State := (part .active).withLcu { (part .active).lcu with direction := .reverse }

theorem test_witness_EdgeOnlyFiltersOrCaptures :
    (unfiltered.live = true ∧ unfiltered.configured = true ∧ unfiltered.scu.filtered.get 0 = none) ∧
    ((part .active).scu.filtered.get 2 = some .low ∧ edgeNamed (cfg.sensors.get 2).edge .low .high = false) ∧
    ((part .active).cfg.sensors.get 3).function = .off ∧ (part .joining).stc.station ≠ .active ∧
    reversed.lcu.direction = .reverse ∧
    ((part .active).scu.filtered.get 1 = some .low ∧ edgeNamed (cfg.sensors.get 1).edge .low .high = true ∧
      ((part .active).cfg.sensors.get 1).function = .sight ∧ (part .active).stc.station = .active ∧
      (part .active).lcu.direction = .forward ∧ (part .active).scu.windows.get 1 = []) :=
  ⟨⟨rfl, rfl, rfl⟩, ⟨rfl, rfl⟩, rfl, by decide, rfl, rfl, rfl, rfl, rfl, rfl, rfl⟩

theorem test_witness_SourceEdgeStatesAMark :
    (part .active).live = true ∧ (part .active).stc.station = .active ∧ (part .active).lcu.direction = .forward ∧
    (part .active).scu.filtered.get 0 = some .low ∧
    edgeNamed ((part .active).cfg.sensors.get 0).edge .low .high = true ∧
    ((part .active).cfg.sensors.get 0).function = .source 0 3 :=
  ⟨rfl, rfl, rfl, rfl, rfl, rfl⟩

/-- The part with sensor 3 high, and set 1 started at a coordinate. -/
def cutting (start : Coord) : State :=
  ((part .active).withScu { (part .active).scu with filtered := .all (some .high) }).withRmu
    { (part .active).rmu with current := some (openSet 1 start) }

theorem test_witness_CutEdgeClosesOrIsIgnored :
    ((cutting 100).live = true ∧ (cutting 100).stc.station = .active ∧ (cutting 100).lcu.direction = .forward ∧
      (cutting 100).scu.filtered.get 2 = some .high ∧
      edgeNamed ((cutting 100).cfg.sensors.get 2).edge .high .low = true ∧
      ((cutting 100).cfg.sensors.get 2).function = .cut ∧ (cutting 100).rmu.current = some (openSet 1 100) ∧
      before 100 (cutting 100).lcu.coord = false) ∧
    ((cutting 99).rmu.current = some (openSet 1 99) ∧ before 99 (cutting 99).lcu.coord = true ∧
      (openSet 1 99).cut = none) ∧
    (closing.rmu.current = some { openSet 1 0 with cut := some 150 } ∧ closing.rmu.next = some (openSet 2 150) ∧
      before 0 closing.lcu.coord = true) :=
  ⟨⟨rfl, rfl, rfl, rfl, rfl, rfl, rfl, rfl⟩, ⟨rfl, rfl, rfl⟩, rfl, rfl, rfl⟩

/-- A window of sensor 2, by centre and name. -/
def window (centre : Coord) (owner : Nat) : Window := ⟨centre, 90, centre + 90, owner, 0, some (2, 5)⟩

/-- The part with three windows, the middle one first to close. -/
def sighting (centre : Coord) : State :=
  (part .active).setWindows 1 [window (centre + 1) 0, window centre 1, window centre 2]

theorem test_witness_MovementClosesWindows :
    let w : Window := ⟨200, 20, 220, 0, 0, some (2, 9)⟩
    (∃ r ∈ (withRecord (action .sight (some 1) .armed)).mke.queue, r.uid = w.owner ∧
      ∃ a, r.actions[w.action]? = some a ∧ a.type = .sight ∧ a.state = .armed) ∧
    ¬ (∃ r ∈ (part .active).mke.queue, r.uid = w.owner ∧
      ∃ a, r.actions[w.action]? = some a ∧ a.type = .sight ∧ a.state = .armed) :=
  ⟨⟨_, List.mem_singleton_self _, rfl, _, rfl, rfl, rfl⟩, fun ⟨_, h, _⟩ => nomatch h⟩

theorem test_witness_SightingTrimsTheCoordinate :
    (sighting 50).live = true ∧ (sighting 50).stc.station = .active ∧ (sighting 50).lcu.direction = .forward ∧
    (sighting 50).scu.filtered.get 1 = some .low ∧
    edgeNamed ((sighting 50).cfg.sensors.get 1).edge .low .high = true ∧
    ((sighting 50).cfg.sensors.get 1).function = .sight ∧
    (sighting 50).scu.windows.get 1 = [window 51 0] ++ window 50 1 :: [window 50 2] ∧
    (∀ v ∈ [window 51 0], before (window 50 1).close v.close = true) ∧
    (∀ v ∈ [window 50 2], before v.close (window 50 1).close = false) ∧
    ((sighting 50).lcu.coord - 50).toInt.natAbs ≤ (sighting 50).cfg.trimLimit ∧
    (sighting 49).cfg.trimLimit < ((sighting 49).lcu.coord - 49).toInt.natAbs ∧
    (((sighting 150).lcu.coord - 150).toInt.natAbs = (sighting 150).cfg.trimLimit ∧
      before (sighting 150).lcu.coord
        ((sighting 150).lcu.coord - BitVec.ofInt 32 (Int.tdiv ((sighting 150).lcu.coord - 150).toInt 2)) = true) ∧
    wellFormedOrder [.aou, .mke, .scu, .rmu] = true ∧
    (holding (sighting 50) [⟨1, 3, .sight, none, false⟩]).holdsFor 3 .sight = true ∧
    (sighting 50).lbi.accepts = true :=
  ⟨rfl, rfl, rfl, rfl, rfl, rfl, rfl, by decide, by decide, by decide, by decide, ⟨by decide, by decide⟩, by decide, rfl,
    rfl⟩

/-- A part that holds a SIGHT claim alone, sights 50 early, and finds a HOLD action in the trim: RUNOK rises and falls
within the event (R112, log 6). -/
def flashing : State :=
  let s := holding (sighting 150) [⟨1, 3, .sight, none, false⟩]
  s.withMke { s.mke with
    queue := [⟨7, 2, some 9, 1, 100, 1, 0, false, false, true, false, [⟨.hold, none, 110, 110, 1, .pending⟩]⟩] }

theorem test_runok_flashes_within_an_event : ∃ u : State,
    exec (.sensorEdge 1 .high [.mke, .scu, .aou, .rmu]) flashing = .next u ∧ u.htu.flashes = 1 ∧
    u.pins.runok = .low ∧ u.holdsFor 0 .mark = true ∧ u.holdsFor 3 .sight = false :=
  ⟨_, rfl, rfl, rfl, rfl, rfl⟩

/-- The part with one channel in a state. -/
def channelled (ch : Fin 4) (c : Channel) : State :=
  (part .active).withAou { (part .active).aou with channels := (part .active).aou.channels.set ch c }

theorem test_witness_ChannelRequests :
    (part .active).aou.channels.get 3 = ⟨.idle, 0⟩ ∧
    (channelled 0 ⟨.pulsing 120, 255⟩).aou.channels.get 0 = ⟨.pulsing 120, 255⟩ ∧
    (channelled 1 ⟨.latched, 254⟩).aou.channels.get 1 = ⟨.latched, 254⟩ ∧
    ((channelled 0 ⟨.pulsing 120, 255⟩).cfg.outputs.get 0).unit = .wu ∧ reaches 100 120 120 = true ∧
    reached (channelled 0 ⟨.pulsing 120, 255⟩).lcu.coord (100 + BitVec.ofNat 32 1) = false :=
  ⟨rfl, rfl, rfl, rfl, rfl, rfl⟩

theorem test_witness_MsPulseEndsInTime :
    (channelled 1 ⟨.pulsing 1000, 0⟩).live = true ∧ (channelled 1 ⟨.pulsing 1000, 0⟩).configured = true ∧
    ((channelled 1 ⟨.pulsing 1000, 0⟩).cfg.outputs.get 1).unit = .ms ∧
    (channelled 1 ⟨.pulsing 1000, 0⟩).aou.channels.get 1 = ⟨.pulsing 1000, 0⟩ ∧
    (channelled 1 ⟨.pulsing 1000, 0⟩).stc.now = 1000 ∧
    before 999 (channelled 1 ⟨.pulsing 999, 0⟩).stc.now = true ∧
    (part .active).mke.queue.Pairwise (fun a b => a.uid ≠ b.uid) :=
  ⟨rfl, rfl, rfl, rfl, rfl, rfl, List.Pairwise.nil⟩

theorem test_witness_CurrentMarkMovesTheOriginTable :
    FrameNext (heard .active (mark 7 0 1 false 200)) .mark ⟨mark 7 0 1 false 200, 60⟩ ∧
    (heard .active (mark 7 0 1 false 200)).stc.station = .active ∧
    (parseMark (mark 7 0 1 false 200).payload).kind ≠ 7 ∧ (parseMark (mark 7 0 1 false 200).payload).lanes ≠ 0 ∧
    ((parseMark (mark 7 0 1 false 200).payload).epoch - (part .active).lcu.epoch).toNat = 0 ∧
    (heard .active (mark 7 0 1 false 200)).mke.entryOf 2 = .unknown ∧
    (tracking (heard .active (mark 7 0 1 false 200)) 6 150).mke.entryOf 2 = .tracking 6 150 ∧
    ((7 : MarkNo) - 6).toNat = 1 ∧ (((32767 : MarkNo) - 0).toNat = 32767 ∧ (part .active).mke.retired = 0) ∧ ((7 : MarkNo) - 7).toNat = 0 ∧
    (32768 : Nat) ≤ ((0 : MarkNo) - 32768).toNat :=
  ⟨⟨rfl, rfl, rfl, rfl, rfl⟩, rfl, by decide, by decide, rfl, rfl, rfl, rfl, ⟨rfl, rfl⟩, rfl, by decide⟩

/-- The part in ACTIVE one epoch on, with a shift held for the previous epoch. -/
def laterEpoch (f : LineFrame) : State :=
  (heard .active f).withLcu { (heard .active f).lcu with epoch := 1, deltaPrev := some 30 }

theorem test_witness_CurrentMarkOfThePreviousEpoch :
    FrameNext (laterEpoch (mark 7 0 1 true 200)) .mark ⟨mark 7 0 1 true 200, 60⟩ ∧
    ((parseMark (mark 7 0 1 true 200).payload).epoch - (laterEpoch (mark 7 0 1 true 200)).lcu.epoch).toNat = 255 ∧
    (laterEpoch (mark 7 0 1 true 200)).lcu.deltaPrev = some 30 ∧
    (parseMark (mark 7 0 1 true 200).payload).fresh = true :=
  ⟨⟨rfl, rfl, rfl, rfl, rfl⟩, rfl, rfl, rfl⟩

/-- An offered mark of kind 1, whose pulse lies ahead. -/
def offer : MarkOffer := ⟨2, some 9, 1, 100, 1, 0, false, true, false⟩

theorem test_witness_FiredActionIsHandedOver :
    (∀ a, record 0 9 [a] ∈ (withRecord a).mke.queue ∧ (record 0 9 [a]).actions[0]? = some a) ∧
    ((action .pulse (some 0) .pending).state = .pending ∧ (action .pulse (some 0) .done).state ≠ .pending) ∧
    ((withRecord (action .hold none .pending)).holdsClaim 2 = false ∧
      (holding (part .active) [⟨1, 0, .operator, none, false⟩, ⟨1, 1, .mark, none, false⟩]).holdsClaim 1 = true ∧
      (part .active).lbi.accepts = true) ∧
    (∀ n, n < 3 → (holding (part .active) [⟨1, 0, .operator, none, false⟩, ⟨1, 1, .mark, none, false⟩,
      ⟨1, 2, .mark, none, false⟩]).holdsClaim n = true) ∧
    (part .active).rmu.current = some (openSet 1 0) :=
  ⟨fun _ => ⟨List.mem_singleton_self _, rfl⟩, ⟨rfl, by decide⟩, ⟨rfl, rfl, rfl⟩, by decide, rfl⟩

/-- A full mark queue, of 64 marks of station 2. -/
def fullQueue : State := withQueue ((List.range 64).map (fun i => record i (BitVec.ofNat 16 i) []))

theorem test_witness_LateSpilledAndRepeatedMarks :
    (MkeOk (withRecord (action .note none .pending)).mke ∧ (withRecord (action .note none .pending)).mke.retired = 0) ∧
    tableEntries (part .active).cfg 2 = [] ∧ tableEntries (part .active).cfg offer.kind ≠ [] ∧
    (fullQueue.mke.queue.length = 64 ∧ fullQueue.mke.spill = none) ∧
    (record 0 9 [] ∈ (withQueue [record 0 9 []]).mke.queue ∧ 1 ≤ offer.origin ∧ offer.origin ≤ 24 ∧
      offer.number = some 9 ∧ (record 0 9 []).origin = offer.origin ∧ (record 0 9 []).number = some 9 ∧
      (record 0 9 []).kind = offer.kind ∧ (record 0 9 []).position = offer.position ∧
      (record 0 9 []).lanes = offer.lanes ∧ (record 0 9 []).extent = offer.extent ∧
      (record 0 9 []).position ≠ ({ offer with position := 101 } : MarkOffer).position) ∧
    ((part .active).sameIdentity { offer with kind := 0 } = none ∧
      (((part .active).makeRecord { offer with kind := 0 }).actions.filter
        (fun a => reached (part .active).lcu.coord a.triggerPos)).length = 1) :=
  ⟨⟨withRecord_ok _, rfl⟩, rfl, by decide, ⟨rfl, rfl⟩, ⟨List.mem_singleton_self _, by decide, by decide, rfl, rfl, rfl,
    rfl, rfl, rfl, rfl, by decide⟩, rfl, rfl⟩

/-- The part with a spill record, a queue that fills it but for one place, and a retirement whose spill entry is
owed. -/
def owing : State := (withQueue ((List.range 63).map (fun i => record i (BitVec.ofNat 16 i) []))).withMke
  { (withQueue ((List.range 63).map (fun i => record i (BitVec.ofNat 16 i) []))).mke with
    spill := some ⟨200, 70000, 2⟩, retired := 1 }

theorem test_witness_RetirementLetsTheSpillIn :
    (∀ r ∈ (withRecord (action .note none .armed)).mke.queue, r.uid = 0 →
      ∃ a ∈ r.actions, a.state = .pending ∨ a.state = .armed) ∧
    (∃ r ∈ (withRecord (action .note none .missed)).mke.queue, r.uid = 0 ∧
      ∀ a ∈ r.actions, a.state = .done ∨ a.state = .missed) ∧
    (part .active).mke.retired = 0 ∧ (part .active).mke.spill = none ∧
    (owing.mke.spill = some ⟨200, 70000, 2⟩ ∧ owing.mke.retired = 0 + 1 ∧
      owing.mke.queue.length + owing.mke.retired = 64 ∧ 65535 < ((70000 : Coord) - 200).toNat) :=
  ⟨by decide, by decide, rfl, rfl, rfl, rfl, rfl, by decide⟩

theorem test_witness_TakenMarkEntersTheQueue :
    (part .active).mke.queue.length < 64 ∧ (part .active).sameIdentity offer = none ∧
    tableEntries (part .active).cfg offer.kind ≠ [] ∧
    (∀ a ∈ ((part .active).makeRecord offer).actions, reached (part .active).lcu.coord a.triggerPos = false) :=
  ⟨by decide, rfl, by decide, by decide⟩

theorem test_witness_StaleMarkOnlyMovesTheNumber :
    FrameNext (heard .active (mark 7 128 1 false 200)) .mark ⟨mark 7 128 1 false 200, 60⟩ ∧
    (heard .active (mark 7 128 1 false 200)).stc.station = .active ∧
    (parseMark (mark 7 128 1 false 200).payload).kind ≠ 7 ∧ (parseMark (mark 7 128 1 false 200).payload).lanes ≠ 0 ∧
    ((parseMark (mark 7 128 1 false 200).payload).epoch - (part .active).lcu.epoch).toNat = 128 ∧
    ((parseMark (mark 7 254 1 false 200).payload).epoch - (part .active).lcu.epoch).toNat = 254 :=
  ⟨⟨rfl, rfl, rfl, rfl, rfl⟩, rfl, by decide, by decide, rfl, rfl⟩

theorem test_witness_MarkAheadEntersDesync :
    FrameNext (heard .active (mark 7 127 1 false 200)) .mark ⟨mark 7 127 1 false 200, 60⟩ ∧
    (heard .active (mark 7 127 1 false 200)).stc.station = .active ∧
    (parseMark (mark 7 127 1 false 200).payload).kind ≠ 7 ∧ (parseMark (mark 7 127 1 false 200).payload).lanes ≠ 0 ∧
    ((parseMark (mark 7 127 1 false 200).payload).epoch - (part .active).lcu.epoch).toNat = 127 :=
  ⟨⟨rfl, rfl, rfl, rfl, rfl⟩, rfl, by decide, by decide, rfl⟩

theorem test_witness_MarkAndZeroFramesDiscarded :
    (FrameNext (heard .desync (mark 7 0 1 false 200)) .mark ⟨mark 7 0 1 false 200, 60⟩ ∧
      (heard .desync (mark 7 0 1 false 200)).stc.station ≠ .active) ∧
    FrameNext (heard .active ⟨.mark, 0, []⟩) .mark ⟨⟨.mark, 0, []⟩, 60⟩ ∧
    FrameNext (heard .active ⟨.mark, 25, []⟩) .mark ⟨⟨.mark, 25, []⟩, 60⟩ ∧
    (parseMark (mark 7 0 7 false 200).payload).kind = 7 ∧ (parseMark (mark 7 0 1 false 200).payload).kind ≠ 7 ∧
    (parseMark (markPayload ⟨7, 0, 1, false, 200, 0, 0⟩)).lanes = 0 ∧
    FrameNext (heard .silent ⟨.zero, 25, zeroPayload 0 0⟩) .zero ⟨⟨.zero, 25, zeroPayload 0 0⟩, 60⟩ ∧
    FrameNext (heard .silent ⟨.zero, 24, zeroPayload 0 0⟩) .zero ⟨⟨.zero, 24, zeroPayload 0 0⟩, 60⟩ ∧
    (heard .silent ⟨.zero, 24, zeroPayload 0 0⟩).stc.station = .silent :=
  ⟨⟨⟨rfl, rfl, rfl, rfl, rfl⟩, by decide⟩, ⟨rfl, rfl, rfl, rfl, rfl⟩, ⟨rfl, rfl, rfl, rfl, rfl⟩, rfl, by decide, rfl,
    ⟨rfl, rfl, rfl, rfl, rfl⟩, ⟨rfl, rfl, rfl, rfl, rfl⟩, rfl⟩

theorem test_witness_ZeroSetsTheCoordinate :
    (heard .desync ⟨.zero, 24, zeroPayload 500 4⟩).stc.station = .desync ∧ 1 ≤ (part .desync).cfg.ratioD ∧
    FrameNext (heard .desync ⟨.zero, 24, zeroPayload 500 4⟩) .zero ⟨⟨.zero, 24, zeroPayload 500 4⟩, 60⟩ ∧
    LoopbackNext (looped .joining ⟨.zero, 1, zeroPayload 500 10⟩) .zero ⟨⟨.zero, 1, zeroPayload 500 10⟩, 60, 0⟩ ∧
    (looped .joining ⟨.zero, 1, zeroPayload 500 10⟩).stc.station = .joining ∧
    (part .active).stc.station = .active ∧ (part .active).lpt.notices.length < 32 :=
  ⟨rfl, by decide, ⟨rfl, rfl, rfl, rfl, rfl⟩, ⟨rfl, rfl, rfl, rfl, rfl⟩, rfl, rfl, by decide⟩

theorem test_witness_ZeroKeepsDistances :
    ((channelled 0 ⟨.pulsing 120, 0⟩).cfg.outputs.get 0).unit = .wu ∧
    ((channelled 0 ⟨.pulsing 120, 0⟩).aou.channels.get 0).state = .pulsing 120 := ⟨rfl, rfl⟩

theorem test_witness_HoldAndReleaseFrames :
    (FrameNext (heard .active ⟨.hold, 24, holdPayload 2 .mark (some (24, 9))⟩) .hold
        ⟨⟨.hold, 24, holdPayload 2 .mark (some (24, 9))⟩, 60⟩ ∧
      parseHold (holdPayload 2 .mark (some (24, 9))) = (2, .mark, some (24, 9))) ∧
    (FrameNext (heard .silent ⟨.hold, 1, holdPayload 3 .sight none⟩) .hold ⟨⟨.hold, 1, holdPayload 3 .sight none⟩, 60⟩ ∧
      parseHold (holdPayload 3 .sight none) = (3, .sight, none)) ∧
    (FrameNext (heard .active ⟨.release, 24, [3]⟩) .release ⟨⟨.release, 24, [3]⟩, 60⟩ ∧ byteAt [3] 0 ≤ 3) ∧
    (FrameNext (heard .active ⟨.hold, 24, holdPayload 3 .mark none⟩) .hold
        ⟨⟨.hold, 24, holdPayload 3 .mark none⟩, 60⟩ ∧ parseHold (holdPayload 3 .mark none) = (3, .mark, none)) ∧
    (FrameNext (heard .active ⟨.release, 1, [4]⟩) .release ⟨⟨.release, 1, [4]⟩, 60⟩ ∧ 4 ≤ byteAt [4] 0) :=
  ⟨⟨⟨rfl, rfl, rfl, rfl, rfl⟩, by decide⟩, ⟨⟨rfl, rfl, rfl, rfl, rfl⟩, by decide⟩, ⟨⟨rfl, rfl, rfl, rfl, rfl⟩, by decide⟩,
    ⟨⟨rfl, rfl, rfl, rfl, rfl⟩, by decide⟩, ⟨rfl, rfl, rfl, rfl, rfl⟩, by decide⟩

theorem test_witness_DismissAndCensusFrames :
    FrameNext (heard .active ⟨.dismiss, 24, [24]⟩) .dismiss ⟨⟨.dismiss, 24, [24]⟩, 60⟩ ∧
    FrameNext (heard .active ⟨.dismiss, 1, [25]⟩) .dismiss ⟨⟨.dismiss, 1, [25]⟩, 60⟩ ∧
    FrameNext (heard .active ⟨.census, 24, []⟩) .census ⟨⟨.census, 24, []⟩, 60⟩ ∧
    (heard .active ⟨.census, 24, []⟩).stc.station ≠ .silent ∧ (heard .active ⟨.census, 24, []⟩).lbi.accepts = true ∧
    FrameNext (heard .silent ⟨.census, 1, []⟩) .census ⟨⟨.census, 1, []⟩, 60⟩ ∧
    FrameNext (heard .silent ⟨.census, 0, []⟩) .census ⟨⟨.census, 0, []⟩, 60⟩ :=
  ⟨⟨rfl, rfl, rfl, rfl, rfl⟩, ⟨rfl, rfl, rfl, rfl, rfl⟩, ⟨rfl, rfl, rfl, rfl, rfl⟩, by decide, rfl,
    ⟨rfl, rfl, rfl, rfl, rfl⟩, ⟨rfl, rfl, rfl, rfl, rfl⟩⟩

/-- A CLAIMS frame of station 24: epoch, sender ACTIVE, claims 0 for OPERATOR and 3 for SIGHT. -/
def claims (epoch : Epoch) : LineFrame := ⟨.claims, 24, [epoch, 2, 0x10, 0x33]⟩

theorem test_witness_ClaimsFrameReplacesTheRecords :
    (FrameNext (heard .active (claims 127)) .claims ⟨claims 127, 60⟩ ∧
      byteAt (claims 127).payload 1 = 2 ∧ parseClaims (claims 127).payload = [(0, .operator), (3, .sight)] ∧
      [0, 3].Nodup ∧
      24 ≠ (heard .active (claims 127)).cfg.station ∧ (heard .active (claims 127)).stc.station = .active ∧
      byteAt (claims 127).payload 1 = 2 ∧
      ((claims 127).payload.getD 0 0 - (heard .active (claims 127)).lcu.epoch).toNat = 127) ∧
    (FrameNext (heard .joining (claims 128)) .claims ⟨claims 128, 60⟩ ∧
      ¬ ((heard .joining (claims 128)).stc.station = .active) ∧
      (heard .joining (claims 128)).lcu.joinSync = .adopting) ∧
    (FrameNext (heard .active ⟨.claims, 24, [0, 2, 0x10, 0x10]⟩) .claims ⟨⟨.claims, 24, [0, 2, 0x10, 0x10]⟩, 60⟩ ∧
      ¬ ((parseClaims [0, 2, 0x10, 0x10]).map Prod.fst).Nodup) :=
  ⟨⟨⟨rfl, rfl, rfl, rfl, rfl⟩, rfl, rfl, by decide, by decide, rfl, rfl, rfl⟩, ⟨⟨rfl, rfl, rfl, rfl, rfl⟩, by decide, rfl⟩,
    ⟨rfl, rfl, rfl, rfl, rfl⟩, by decide⟩

/-- A CUTOVER frame of station 24. -/
def cutover (cut : Coord) : LineFrame := ⟨.cutover, 24, cutoverPayload cut 9⟩

theorem test_witness_CutoverFrames :
    LoopbackNext (looped .active ⟨.cutover, 1, cutoverPayload 90 1⟩) .cutover
      ⟨⟨.cutover, 1, cutoverPayload 90 1⟩, 60, 0⟩ ∧
    (FrameNext (heard .joining (cutover 101)) .cutover ⟨cutover 101, 60⟩ ∧
      (heard .joining (cutover 101)).stc.station ≠ .active) ∧
    (FrameNext (heard .active (cutover 101)) .cutover ⟨cutover 101, 60⟩ ∧
      (part .active).cfg.rollMap = true ∧ (part .active).cfg.followCuts = true ∧
      (part .active).stc.station = .active ∧ (part .active).rmu.current = some (openSet 1 0) ∧
      BitVec.ofNat 32 (field (cutover 101).payload 0 4) = 101#32) ∧
    before (openSet 1 0).start 0 = false ∧ before (openSet 1 0).start 101 = true ∧ (openSet 1 0).cut = none ∧
    reached (part .active).lcu.coord 101 = false ∧ before (openSet 1 0).start 100 = true ∧
    reached (part .active).lcu.coord 100 = true ∧
    (closing.rmu.current = some { openSet 1 0 with cut := some 150 } ∧ closing.rmu.next = some (openSet 2 150) ∧
      closing.stc.station = .active ∧ closing.lcu.coord = 100) :=
  ⟨⟨rfl, rfl, rfl, rfl, rfl⟩, ⟨⟨rfl, rfl, rfl, rfl, rfl⟩, by decide⟩, ⟨⟨rfl, rfl, rfl, rfl, rfl⟩, rfl, rfl, rfl, rfl, rfl⟩,
    rfl, rfl, rfl, rfl, rfl, rfl, rfl, rfl, rfl, rfl⟩

theorem test_witness_MovementCompletesACut :
    (closing.rmu.current = some { openSet 1 0 with cut := some 150 } ∧ closing.rmu.next = some (openSet 2 150) ∧
      reaches 100 150 150 = true ∧ reaches 150 151 150 = false ∧ closing.rmu.closed.length ≤ 4 ∧
      (openSet 1 0).dropped ≤ 65535 ∧ ({ openSet 2 150 with dropped := 65535 } : RollSet).dropped ≤ 65535) ∧
    (∀ nxt, (part .active).rmu.next ≠ some nxt) :=
  ⟨⟨rfl, rfl, rfl, rfl, by decide, by decide, by decide⟩, fun _ => nofun⟩

/-- The part with the fields of the Line Bus Interface that timers and line events look at. -/
def onLine (mode : SendMode) (line : LineState) (yieldPending : Bool) (quiet : Option Time) : State :=
  (part .active).withLbi { (part .active).lbi with
    mode := mode, line := line, yieldPending := yieldPending, quiet := quiet }

theorem test_witness_PlainTimerAndLineEvents :
    (part .active).live = true ∧
    ((onLine .quiet .idle false (some 1000)).lbi.mode = .quiet ∧
      (onLine .quiet .idle false (some 1000)).lbi.quiet = some 1000 ∧
      reached (onLine .quiet .idle false (some 1000)).stc.now 1000 = true) ∧
    ((part .active).withRmu { (part .active).rmu with pendingRead := some (1, 1000) }).rmu.pendingRead = some (1, 1000) ∧
    ((onLine .mute .waitIdle false none).lbi.mode ≠ .off ∧ (onLine .mute .waitIdle false none).lbi.line = .waitIdle) ∧
    ((onLine .ready .idle true none).lbi.line = .idle ∧ (onLine .ready .idle true none).lbi.yieldPending = true ∧
      (onLine .ready .idle true none).lbi.attempt = none) ∧
    (onLine .ready .waitIdle true none).lbi.line ≠ .idle ∧ (sending (part .active) .census 0).lbi.attempt ≠ none :=
  ⟨rfl, ⟨rfl, rfl, rfl⟩, rfl, ⟨by decide, rfl⟩, ⟨rfl, rfl, rfl⟩, by decide, by decide⟩

/-- The part with a claim of station 24, heard exactly three refresh periods ago, the refresh timer due, and a tail. -/
def overdue (tail : Nat) : State :=
  (part .active).withHtu ⟨[⟨24, 0, .operator, none, false⟩], List.replicate 23 none ++ [some 700], some 1000, tail, 0⟩

theorem test_witness_StalenessAndRefresh :
    ((overdue 0).live = true ∧ (overdue 0).configured = true ∧ 24 ≠ (overdue 0).cfg.station ∧
      (∃ r ∈ (overdue 0).htu.table, r.origin = 24 ∧ r.stale = false) ∧
      (overdue 0).htu.lastHeard.getD (24 - 1) none = some 700 ∧
      3 * (overdue 0).cfg.refreshPeriod = ((overdue 0).stc.now - 700).toNat) ∧
    ((overdue 0).stc.station = .active ∧ (overdue 0).htu.refresh = some 1000 ∧
      reached (overdue 0).stc.now 1000 = true) ∧
    (∃ r ∈ (holding (overdue 0) [⟨1, 3, .sight, none, false⟩]).htu.table, r.origin = (overdue 0).cfg.station) ∧
    ((∀ r ∈ (overdue 1).htu.table, r.origin ≠ (overdue 1).cfg.station) ∧ 0 < (overdue 1).htu.tail) ∧
    (overdue 0).htu.tail = 0 :=
  ⟨⟨rfl, rfl, by decide, ⟨_, List.mem_cons_self, rfl, rfl⟩, rfl, rfl⟩, ⟨rfl, rfl, rfl⟩,
    ⟨_, List.mem_cons_self, rfl⟩, ⟨by decide, by decide⟩, rfl⟩

/-- A part at the end of its join interval. -/
def joined (sync : JoinSync) : State :=
  ((part .joining).withStc { (part .joining).stc with join := some 1000 }).withLcu
    { (part .joining).lcu with joinSync := sync }

theorem test_witness_JoinEnds :
    ((joined .zeroed).live = true ∧ (joined .zeroed).stc.station = .joining ∧ (joined .zeroed).stc.join = some 1000 ∧
      reached (joined .zeroed).stc.now 1000 = true ∧ (joined .zeroed).lcu.joinSync = .zeroed ∧
      (joined .zeroed).lpt.notices.length < 31) ∧
    (joined .lagging).lcu.joinSync ≠ .zeroed := ⟨⟨rfl, rfl, rfl, rfl, rfl, by decide⟩, by decide⟩

/-- The part with frames waiting. -/
def queued (urgent normal : List OutFrame) (loop : Option Loopback) : State :=
  (part .active).withLbi { (part .active).lbi with urgent := urgent, normal := normal, loopback := loop }

theorem test_witness_AttemptStarts :
    ((part .active).live = true ∧ (part .active).lbi.mode = .ready ∧ (part .active).lbi.line = .idle) ∧
    (((part .active).withLbi { (part .active).lbi with slot := some ⟨.claims, 7⟩ }).lbi.slot = some ⟨.claims, 7⟩ ∧
      OutFrame.claims.kind ≠ .cutover ∧ OutFrame.claims.kind ≠ .zero ∧ (part .active).lbi.yieldPending = false) ∧
    ((queued [.release 0] [.census] none).lbi.slot = none ∧
      (queued [.release 0] [.census] none).lbi.urgent = .release 0 :: [] ∧
      (OutFrame.release 0).kind ≠ .cutover ∧ (OutFrame.release 0).kind ≠ .zero) ∧
    ((queued [.zero 0 10] [.census] (some ⟨⟨.zero, 1, []⟩, 0, 0⟩)).lbi.urgent = .zero 0 10 :: [] ∧
      (OutFrame.zero 0 10).kind = .zero ∧
      (queued [.zero 0 10] [.census] (some ⟨⟨.zero, 1, []⟩, 0, 0⟩)).lbi.loopback ≠ none ∧
      (queued [.zero 0 10] [.census] (some ⟨⟨.zero, 1, []⟩, 0, 0⟩)).lbi.normal = .census :: [] ∧
      OutFrame.census.kind ≠ .cutover ∧ OutFrame.census.kind ≠ .zero) :=
  ⟨⟨rfl, rfl, rfl⟩, ⟨rfl, by decide, by decide, rfl⟩, ⟨rfl, rfl, by decide, by decide⟩,
    ⟨rfl, rfl, by decide, rfl, by decide, by decide⟩⟩

theorem test_witness_BitErrorAbortsTheAttempt :
    ∀ failed ∈ [0, 1, 6, 7], ∃ f x, (sending (part .active) (.cutover 90 1) failed).live = true ∧
      (sending (part .active) (.cutover 90 1) failed).lbi.attempt = some f ∧
      (sending (part .active) (.cutover 90 1) failed).lbi.slot = some x ∧ x.failed = failed :=
  fun _ _ => ⟨_, _, rfl, rfl, rfl, rfl⟩

theorem test_witness_OwnFrameEnds :
    ∀ o ∈ [OutFrame.zero 0 10, .cutover 90 1, .mark ⟨0, 0, 0, true, 5, 1, 0⟩, .dismiss 2, .hold 0 .mark none, .release 3,
        .claims, .census],
      ∃ f x, (sending (part .active) o 0).live = true ∧ (sending (part .active) o 0).lbi.attempt = some f ∧
        (sending (part .active) o 0).lbi.slot = some x ∧ x.frame = o :=
  fun _ _ => ⟨_, _, rfl, rfl, rfl, rfl⟩

/-- The part reading a frame, with 8 inbound entries. -/
def readingFull : State :=
  (reading .active).withLbi { (reading .active).lbi with inbound := List.replicate 8 ⟨⟨.census, 3, []⟩, 0⟩ }

theorem test_witness_ReceiverReadsFrames :
    ((reading .active).live = true ∧ (reading .active).lbi.mode ≠ .off ∧ (reading .active).lbi.line = .frame ∧
      (reading .active).lbi.attempt = none) ∧
    readFrame (List.replicate 6 false) = .fault 1 ∧
    readFrame (⟨.release, 24, [2]⟩ : LineFrame).wire = .valid ⟨.release, 24, [2]⟩ ∧
    (24 ≠ (reading .active).cfg.station ∧ (reading .active).lbi.inbound.length < 8 ∧
      8 ≤ readingFull.lbi.inbound.length) ∧
    (readFrame (⟨.census, 1, []⟩ : LineFrame).wire = .valid ⟨.census, 1, []⟩ ∧ 1 = (reading .active).cfg.station ∧
      (reading .active).stc.station = .active ∧ (reading .active).lpt.notices.length < 31) :=
  ⟨⟨rfl, by decide, rfl, rfl⟩, by decide, by decide +kernel, ⟨by decide, by decide, by decide⟩, by decide +kernel, rfl,
    rfl, by decide⟩

theorem test_witness_FrameOnTheLineReadsBack :
    (31 < 32 ∧ FrameKind.claims.lengthOk [0#8, 2, 0, 0x10, 0x20, 0x33].length = true) ∧
    (0 < 32 ∧ FrameKind.claims.lengthOk [0#8, 2].length = true) ∧ FrameKind.mark.lengthOk (List.replicate 12 0#8).length := by
  decide

/-- The bits of a CENSUS frame of station 3 after its start bit, check included, without stuff bits. -/
def censusFields : List Bool :=
  (⟨.census, 3, []⟩ : LineFrame).body ++ bitsOf 16 (crc (⟨.census, 3, []⟩ : LineFrame).body).toNat

/-- A CENSUS frame of station 3, its fields, a wrong check, a length above 12, an unknown kind, and a wrong length. -/
theorem test_witness_FaultyFramesGiveTheirCause :
    (([] : List Bool).length < 14) ∧
    (numberOf ((censusFields.drop 10).take 4) = 0 ∧ censusFields.length = 30 + 8 * 0 ∧
      numberOf ((censusFields.drop 14).take 16) = (crc (censusFields.take 14)).toNat ∧
      numberOf (((censusFields.set 29 false).drop 14).take 16) ≠ (crc (censusFields.take 14)).toNat ∧
      numberOf (censusFields.take 1) * 16 + numberOf ((censusFields.drop 1).take 4) = 20) ∧
    (false :: stuff false 1 [false, false, false, false] = [] ++ List.replicate 5 false ++ [!false]) ∧
    (numberOf (((List.replicate 14 true).drop 10).take 4) = 15 ∧ (List.replicate 14 true).length = 14) ∧
    (numberOf (bitsOf 5 5) = 5 ∧ 7 ∉ [2, 3, 4, 5, 6]) := by decide +kernel

theorem test_witness_LineFramePayloads :
    4294967295 < 256 ^ 4 ∧ 16777215 < 16777216 ∧ (15 < 16 ∧ 255 < 256) ∧ 65535 < 65536 ∧
    (∀ c ∈ [(15, Reason.sight), (0, .mark)], c.1 < 16) := by decide

theorem test_witness_TransactionsMoveTheSlot :
    ((part .active).live = true ∧ (part .active).pins.lcs = .high ∧ (part .active).lpt.slot = .ready ⟨0, .none, []⟩) ∧
    (asked (part .active) .hold [0]).lpt.slot = .preparing 0x21 [0] ∧
    ((part .active).withPins { (part .active).pins with lcs := .low }).pins.lcs = .low ∧
    (List.replicate 512 0#8).length ≤ 512 ∧ (List.replicate 7 true).length < 8 ∧ [1#8, 0].length < 3 ∧
    512 < field [1, 2, 1] 1 2 ∧ [3#8, 0, 0].length < 4 + field [3, 0, 0] 1 2 ∧
    (([3, 0, 0, 0] : List Byte).take (4 + field [3, 0, 0, 0] 1 2)).foldl (· + ·) 0 ≠ 0 :=
  ⟨⟨rfl, rfl, rfl⟩, rfl, rfl, by decide +kernel, by decide, by decide, by decide, by decide, by decide⟩

/-- The bits of a request frame, most significant first, are its bytes; seven bits more are no byte (R177). -/
theorem test_bits_of_a_transaction :
    clockedBytes ([false, false, true, false, false, false, false, true] ++ List.replicate 7 true) = [0x21] ∧
    shiftOut [0x21, 0x80] 18 = [false, false, true, false, false, false, false, true, true, false, false, false,
      false, false, false, false, true, true] := by decide

/-- A block accepted, and blocks refused at a general field, an output, a sensor, and an entry of the last kind. -/
theorem test_witness_ConfigurationBlock :
    firstFailing block = none ∧ firstFailing (block.set 12 17) = some 8 ∧ firstFailing (block.set 36 2) = some 27 ∧
    firstFailing (block.set 42 3) = some 30 ∧ firstFailing (block.set 332 4) = some 197 := by decide +kernel

theorem test_witness_ConfigureStartsThePart :
    Requested (asked State.reset .configure block) .configure block ∧ firstFailing block = none ∧
    firstFailing (block.set 0 0) = some 1 ∧ State.reset.htu.table = [] ∧ State.reset.htu.refresh = none ∧
    State.reset.lbi.urgent = [] ∧ State.reset.lbi.normal = [] ∧ State.reset.lbi.deferred = [] :=
  ⟨⟨rfl, rfl, rfl, by decide +kernel⟩, by decide +kernel, by decide +kernel, rfl, rfl, rfl, rfl, rfl⟩

theorem test_witness_RestartMakesAWarmReset :
    Requested (asked (part .active) .restart []) .restart [] ∧
    (asked (part .active) .restart []).rmu.current = some (openSet 1 0) ∧ (openSet 1 0).cut = none ∧
    (part .active).rmu.next = none ∧ ((part .active).withRmu Rmu.cold).rmu.current = none ∧
    (Requested (asked closing .restart []) .restart [] ∧
      closing.rmu.current = some { openSet 1 0 with cut := some 150 } ∧ closing.rmu.next = some (openSet 2 150)) :=
  ⟨⟨rfl, rfl, rfl, rfl⟩, rfl, rfl, rfl, rfl, ⟨rfl, rfl, rfl, rfl⟩, rfl, rfl⟩

theorem test_witness_ReadsChangeNothing :
    Requested (asked State.reset .readState []) .readState [] ∧
    Requested (asked (part .joining) .readMarks [63, 8]) .readMarks [63, 8] ∧
    Requested (asked (part .joining) .readMarks [0, 9]) .readMarks [0, 9] ∧
    Requested (asked (part .silent) .readHolds [95, 24]) .readHolds [95, 24] ∧
    Requested (asked (part .silent) .readHolds [96, 1]) .readHolds [96, 1] :=
  ⟨⟨rfl, rfl, rfl, rfl⟩, ⟨rfl, rfl, rfl, rfl⟩, ⟨rfl, rfl, rfl, rfl⟩, ⟨rfl, rfl, rfl, rfl⟩, ⟨rfl, rfl, rfl, rfl⟩⟩

theorem test_witness_ReadCountersReturnsCounters :
    (asked State.reset .readCounters []).live = true ∧ (asked State.reset .readCounters []).lpt.slot = .preparing 0x04 [] :=
  ⟨rfl, rfl⟩

theorem test_witness_TakeNoticesFreesPlaces :
    Requested (asked goodNoticed .takeNotices [4]) .takeNotices [4] ∧
    Requested (asked goodNoticed .takeNotices [5]) .takeNotices [5] ∧
    Requested (asked goodNoticed .takeNotices [0]) .takeNotices [0] ∧ goodNoticed.lpt.notices.length ≤ 32 :=
  ⟨⟨rfl, rfl, rfl, rfl⟩, ⟨rfl, rfl, rfl, rfl⟩, ⟨rfl, rfl, rfl, rfl⟩, by decide⟩

/-- A POST MARK payload: kind, lanes, position. -/
def post (kind lanes position : Byte) : List Byte := [kind, 0, 0, lanes, 0, 0, 0, 0, 0, position, 1, 2, 3, 4]

/-- The part that last posted position 90. -/
def posted : State := (part .active).withMke { (part .active).mke with lastPosted := some 90 }

theorem test_witness_PostMarkStatesAMark :
    (Requested (asked (part .joining) .postMark (post 6 15 90)) .postMark (post 6 15 90) ∧
      (part .joining).stc.station ≠ .active) ∧
    Requested (asked posted .postMark (post 6 15 90)) .postMark (post 6 15 90) ∧ posted.stc.station = .active ∧
    ((parsePost (post 6 15 90)).kind ≤ 6 ∧ (parsePost (post 6 15 90)).lanes ≠ 0 ∧
      (parsePost (post 6 15 90)).lanes &&& allLanes posted.cfg.laneCount = (parsePost (post 6 15 90)).lanes) ∧
    ¬ (parsePost (post 7 15 90)).kind ≤ 6 ∧ posted.mke.lastPosted = some 90 ∧
    before (parsePost (post 6 15 90)).position 90 = false ∧ before (parsePost (post 6 15 89)).position 90 = true ∧
    posted.lbi.normalFree = true ∧ posted.lbi.accepts = true ∧ goodQueue.lbi.normalFree = false :=
  ⟨⟨⟨rfl, rfl, rfl, rfl⟩, by decide⟩, ⟨rfl, rfl, rfl, rfl⟩, rfl, ⟨by decide, by decide, by decide⟩, by decide, rfl, rfl,
    rfl, rfl, rfl, rfl⟩

/-- The part with every unreserved place taken. -/
def crowded : State := (part .active).withLbi { (part .active).lbi with urgent := List.replicate 12 (.dismiss 2) }

theorem test_witness_OperatorRequestsOfTheLine :
    Requested (asked (part .desync) .zero [0x7F, 0xFF, 0xFF, 0xFF]) .zero [0x7F, 0xFF, 0xFF, 0xFF] ∧
    field [0x7F, 0xFF, 0xFF, 0xFF] 0 4 = 2147483647 ∧ 2147483647 < field [0x80, 0, 0, 0] 0 4 ∧
    (part .desync).lbi.unreservedFree = true ∧ (part .desync).lbi.accepts = true ∧
    crowded.lbi.unreservedFree = false ∧
    Requested (asked (part .active) .dismiss [24]) .dismiss [24] ∧ byteAt [24] 0 ≠ (part .active).cfg.station ∧
    Requested (asked (part .active) .dismiss [25]) .dismiss [25] :=
  ⟨⟨rfl, rfl, rfl, rfl⟩, by decide, by decide, rfl, rfl, rfl, ⟨rfl, rfl, rfl, rfl⟩, by decide, ⟨rfl, rfl, rfl, rfl⟩⟩

/-- The part with its own claims 0 and 3. -/
def claiming (reason : Reason) : State :=
  holding (part .active) [⟨1, 0, .operator, none, false⟩, ⟨1, 3, reason, none, false⟩]

theorem test_witness_OperatorRequestsOfClaims :
    (Requested (asked (part .active) .hold [2]) .hold [2] ∧ (part .active).holdsClaim 2 = false ∧
      (part .active).lbi.unreservedFree = true ∧ (part .active).lbi.accepts = true) ∧
    (claiming .sight).holdsClaim 0 = true ∧ (crowded.lbi.waitsFor 2 = false ∧ crowded.lbi.unreservedFree = false) ∧
    (Requested (asked (claiming .sight) .release [3]) .release [3] ∧ (claiming .sight).holdsClaim 3 = true ∧
      (claiming .sight).holdsFor 3 .sight = true) ∧
    (claiming .desync).holdsFor 3 .sight = false ∧ (part .active).holdsClaim 3 = false ∧ 3 < byteAt [4] 0 :=
  ⟨⟨⟨rfl, rfl, rfl, rfl⟩, rfl, rfl, rfl⟩, rfl, ⟨rfl, rfl⟩, ⟨⟨rfl, rfl, rfl, rfl⟩, rfl, rfl⟩, rfl, rfl, by decide⟩

theorem test_witness_RollMapRequestsForCuts :
    Requested (asked (part .active) .cutover [0, 0, 0, 0, 101]) .cutover [0, 0, 0, 0, 101] ∧
    Requested (asked (part .active) .cutover [1, 0, 0, 0, 0]) .cutover [1, 0, 0, 0, 0] ∧
    Requested (asked (part .active) .cutover [2, 0, 0, 0, 0]) .cutover [2, 0, 0, 0, 0] ∧
    (part .active).cfg.rollMap = true ∧ (part .active).rmu.current = some (openSet 1 0) ∧ (openSet 1 0).cut = none ∧
    before (part .active).lcu.coord (BitVec.ofNat 32 (field [0, 0, 0, 0, 101] 1 4)) = true ∧
    before (openSet 1 0).start (part .active).lcu.coord = true ∧ before (part .active).lcu.coord 100 = false ∧
    before (openSet 1 100).start 100 = false ∧ (part .active).lbi.normalFree = true ∧
    goodQueue.lbi.normalFree = false ∧
    Requested (asked closing .cancelCutover []) .cancelCutover [] ∧
    closing.rmu.current = some { openSet 1 0 with cut := some 150 } ∧ closing.rmu.next = some (openSet 2 150) ∧
    ((part .active).withStc { (part .active).stc with config := some Settings.blank }).cfg.rollMap = false :=
  ⟨⟨rfl, rfl, rfl, rfl⟩, ⟨rfl, rfl, rfl, rfl⟩, ⟨rfl, rfl, rfl, rfl⟩, rfl, rfl, rfl, rfl, rfl, rfl, rfl, rfl, rfl,
    ⟨rfl, rfl, rfl, rfl⟩, rfl, rfl, rfl⟩

/-- The part with closed sets 5 and 6 and a read pending. -/
def kept (pending : Option (Nat × Time)) : State :=
  closing.withRmu { closing.rmu with closed := [closedSet 5, closedSet 6], pendingRead := pending }

theorem test_witness_RollMapRequestsForReads :
    Requested (asked (kept none) .readRoll [0, 6, 255, 8]) .readRoll [0, 6, 255, 8] ∧
    (kept none).rmu.closed.find? (fun x => x.set.number == 6) = some (closedSet 6) ∧
    Requested (asked (kept none) .readRoll [0, 6, 0, 9]) .readRoll [0, 6, 0, 9] ∧
    ((∀ c ∈ (kept none).rmu.closed, c.set.number ≠ 1) ∧ (kept none).rmu.current = closing.rmu.current ∧
      closing.rmu.current.map RollSet.number = some 1) ∧
    ((kept none).rmu.next.map RollSet.number = some 2 ∧ ∀ c ∈ (kept none).rmu.closed, c.set.number ≠ 2) ∧
    ((kept (some (5, 9))).rmu.pendingRead = some (5, 9) ∧ 5 ≠ 1) ∧ (kept (some (1, 9))).rmu.pendingRead = some (1, 9) ∧
    (∀ c ∈ (kept none).rmu.closed, c.set.number ≠ 7) ∧
    Requested (asked (kept none) .freeRoll [0, 5]) .freeRoll [0, 5] ∧
    (∃ c ∈ (kept none).rmu.closed, c.set.number = field [0, 5] 0 2) :=
  ⟨⟨rfl, rfl, rfl, rfl⟩, rfl, ⟨rfl, rfl, rfl, rfl⟩, ⟨by decide, rfl, rfl⟩, ⟨rfl, by decide⟩, ⟨rfl, by decide⟩, rfl,
    by decide, ⟨rfl, rfl, rfl, rfl⟩, _, List.mem_cons_self, by decide⟩

/-- The part with a request of any code in its slot. -/
def preparing (st : StationState) (code : Byte) (p : List Byte) : State :=
  (part st).withLpt { (part st).lpt with slot := .preparing code p }

theorem test_witness_RequestsRefusedBeforeTheirBlock :
    ((preparing .active 0xFF []).live = true ∧ (preparing .active 0xFF []).lpt.slot = .preparing 0xFF [] ∧
      0x34#8 ≤ 0xFF) ∧
    (0x06#8 ≤ 0x0F ∧ (0x12#8 ≤ 0x17 ∧ (0x17 : Byte) ≤ 0x17) ∧ 0x19#8 ≤ 0x1F ∧ 0x24#8 ≤ 0x2F) ∧
    ((preparing .silent 0x33 [0, 1]).lpt.slot = .preparing Request.freeRoll.code [0, 1] ∧
      Request.freeRoll.refusal (preparing .silent 0x33 [0, 1]).stc.station = some .state) ∧
    Request.configure.refusal (preparing .joining 0x01 []).stc.station = some .locked ∧
    (Request.configure.refusal (preparing .unconfigured 0x01 []).stc.station = none ∧
      ([] : List Byte).length ≠ Request.configure.length) ∧
    (Request.cutover.refusal (preparing .active 0x30 [1]).stc.station = none ∧
      ([1] : List Byte).length ≠ Request.cutover.length) := by decide

end Sys2Proof.Tests
end

section
/-! The encoder error: a transition of both encoder lines at once (R3, R4). -/

namespace Sys2Proof.Machine

/-! ### The transition -/

@[simp] theorem Level.ne_flip (l : Level) : l ≠ l.flip := by
  cases l <;> decide

/-- Both lines change, whatever levels they had (R3). -/
theorem turnOf_flip_flip (a b : Level) : turnOf (a, b) (a.flip, b.flip) = .error := by
  simp [turnOf]

/-- An error is an error in either sense (R1 turns the counts alone). -/
@[simp] theorem Turn.sensed_error (sense : Sense) : Turn.error.sensed sense = .error := by
  cases sense <;> rfl

theorem Pins.toggle_enca_encb (p : Pins) :
    (p.toggle .enca).toggle .encb = { p with enca := p.enca.flip, encb := p.encb.flip } := rfl

/-! ### What the Length Counting Unit does with it -/

/-- The unit holds the new levels, and no count is made. -/
theorem State.decodeEncoder_of_error (s : State) {held : Level × Level} (order : List MoveBlock)
    (hlevels : s.lcu.levels = some held) (hturn : turnOf held (s.pins.enca, s.pins.encb) = .error) :
    s.decodeEncoder order =
      (s.withLcu { s.lcu with levels := some (s.pins.enca, s.pins.encb) }).encoderFault := by
  simp [State.decodeEncoder, hlevels, hturn]

theorem State.noticeEncoder_of_outstanding (s : State) (h : s.lcu.encoderOutstanding = true) :
    s.noticeEncoder = s := by
  simp [State.noticeEncoder, h]

theorem State.noticeEncoder_of_clear (s : State) (h : s.lcu.encoderOutstanding = false) :
    s.noticeEncoder =
      (s.notice .encoder none none (valueOf s.stc.counters.encoderErrors)).withLcu
        { s.lcu with encoderOutstanding := decide (s.lpt.notices.length < 32) } := by
  simp [State.noticeEncoder, h]

/-- The error is counted and recorded in the Station Controller, and then the notice is offered. -/
theorem State.encoderFault_eq (s : State) :
    s.encoderFault = (s.withStc { s.stc with
      counters := { s.stc.counters with encoderErrors := holdInc 65535 s.stc.counters.encoderErrors }
      fault := some ⟨.encoderError, s.stc.now, s.cfg.station⟩ }).noticeEncoder := rfl

/-! ### The command -/

/-- A part that decodes takes ENCODER_ERROR as an encoder error. -/
theorem exec_encoderError_of_held {s : State} (h : EncoderHeld s (s.pins.enca, s.pins.encb)) :
    exec .encoderError s = .next
      (((s.withPins { s.pins with enca := s.pins.enca.flip, encb := s.pins.encb.flip }).withLcu
        { s.lcu with levels := some (s.pins.enca.flip, s.pins.encb.flip) }).encoderFault).driven := by
  obtain ⟨hlive, hconfigured, hlevels⟩ := h
  have hdecode := State.decodeEncoder_of_error
    (s.withPins { s.pins with enca := s.pins.enca.flip, encb := s.pins.encb.flip }) []
    hlevels (turnOf_flip_flip s.pins.enca s.pins.encb)
  calc exec .encoderError s
    _ = execEncoderError s := rfl
    _ = event ((s.withPins { s.pins with
          enca := s.pins.enca.flip, encb := s.pins.encb.flip }).decodeEncoder []) := by
        simp [execEncoderError, hlive, hconfigured, Pins.toggle_enca_encb]
    _ = _ := by rw [hdecode]; rfl

/-- Settles O19: the transition is an error in either sense, so no count is made; the notice is offered by whether one
is outstanding. -/
theorem encoderErrorMakesNoCount : Obligations.EncoderErrorMakesNoCount := by
  intro s held new errors counted
  rw [exec_encoderError_of_held held, State.encoderFault_eq]
  change Host.Outcome.next counted.noticeEncoder.driven = _
  cases hout : s.lcu.encoderOutstanding with
  | true => rw [State.noticeEncoder_of_outstanding counted hout, if_pos rfl]
  | false =>
    rw [State.noticeEncoder_of_clear counted hout]
    rfl

end Sys2Proof.Machine
end

section
/-! The stale MARK frame: its notice, and what the origin table takes from its number (R21 to R23). -/

namespace Sys2Proof.Machine

/-! ### The tests a MARK frame meets -/

@[simp] theorem within_iff {low high n : Nat} : within low high n = true ↔ low ≤ n ∧ n ≤ high := by
  simp [within]

@[simp] theorem validStation_iff {o : Nat} : validStation o = true ↔ 1 ≤ o ∧ o ≤ 24 := by
  simp [validStation]

@[simp] theorem State.isActive_iff {s : State} : s.isActive = true ↔ s.stc.station = .active := by
  simp [State.isActive]

/-- A MARK frame passes exactly where its origin is a station, its kind is not BLIND and it has a lane (R21). -/
theorem markFault_eq_none_iff {o : Nat} {m : MarkFrame} :
    markFault o m = none ↔ (1 ≤ o ∧ o ≤ 24) ∧ m.kind ≠ 7 ∧ m.lanes ≠ 0 := by
  rw [← validStation_iff]
  unfold markFault blindKind
  split_ifs with horigin hkind hlanes
  · have hinvalid : validStation o = false := by simpa only [Bool.not_eq_true'] using horigin
    simp [hinvalid]
  · simp [eq_of_beq hkind]
  · simp [eq_of_beq hlanes]
  · exact iff_of_true rfl ⟨by simpa only [Bool.not_eq_true', Bool.not_eq_false] using horigin,
      mt beq_iff_eq.mpr hkind, mt beq_iff_eq.mpr hlanes⟩

/-! ### The way of a frame to the stale case -/

theorem State.takeMark_of_passes {s : State} (n : NoticeOrder) {o : Nat} {m : MarkFrame}
    (hactive : s.stc.station = .active) (hpass : markFault o m = none) :
    s.takeMark n o m = s.compareMark n o m := by
  simp [State.takeMark, hactive, hpass]

/-- The last row of R22's table. -/
theorem State.compareMark_of_stale {s : State} (n : NoticeOrder) (o : Nat) {m : MarkFrame}
    (hlow : 128 ≤ s.epochDiff m.epoch) (hhigh : s.epochDiff m.epoch ≤ 254) :
    s.compareMark n o m = s.staleMark o m (s.epochDiff m.epoch) := by
  have hcurrent : s.epochDiff m.epoch ≠ 0 := by omega
  have hprevious : s.epochDiff m.epoch ≠ 255 := by omega
  have hahead : ¬ s.epochDiff m.epoch ≤ 127 := by omega
  simp [State.compareMark, hcurrent, hprevious, hahead]

/-! ### What the origin table takes (R23) -/

theorem State.staleMark_of_unknown {s : State} {o : Nat} (m : MarkFrame) (d : Nat)
    (hentry : s.mke.entryOf o = .unknown) :
    s.staleMark o m d = s.notice .markStale (some o) (some m.number) (some (BitVec.ofNat 32 d)) := by
  simp [State.staleMark, hentry, valueOf]

/-- A number ahead of the last one is taken; the position held stays. -/
theorem State.staleMark_of_ahead {s : State} {o : Nat} {m : MarkFrame} (d : Nat) {last : MarkNo} {p : Coord}
    (hentry : s.mke.entryOf o = .tracking last p)
    (hahead : 1 ≤ (m.number - last).toNat ∧ (m.number - last).toNat ≤ 32767) :
    s.staleMark o m d =
      (s.notice .markStale (some o) (some m.number) (some (BitVec.ofNat 32 d))).withMke { s.mke with
        origins := modifyAt (fun _ => .tracking m.number p) (o - 1) s.mke.origins } := by
  rw [← within_iff] at hahead
  simp only [State.staleMark, hentry, valueOf, if_pos hahead, State.setOrigin, State.mke_notice]

theorem State.staleMark_of_not_ahead {s : State} {o : Nat} {m : MarkFrame} (d : Nat) {last : MarkNo} {p : Coord}
    (hentry : s.mke.entryOf o = .tracking last p)
    (hnot : ¬ (1 ≤ (m.number - last).toNat ∧ (m.number - last).toNat ≤ 32767)) :
    s.staleMark o m d = s.notice .markStale (some o) (some m.number) (some (BitVec.ofNat 32 d)) := by
  rw [← within_iff] at hnot
  simp only [State.staleMark, hentry, valueOf, if_neg hnot]

/-! ### The command -/

/-- An ACTIVE station takes a MARK frame that passes its checks and is stale as a stale mark. -/
theorem exec_markFrame_of_stale {s : State} {e : InEntry} (n : NoticeOrder) (hnext : FrameNext s .mark e)
    (hactive : s.stc.station = .active) (hpass : markFault e.frame.origin (parseMark e.frame.payload) = none)
    (hlow : 128 ≤ s.epochDiff (parseMark e.frame.payload).epoch)
    (hhigh : s.epochDiff (parseMark e.frame.payload).epoch ≤ 254) :
    exec (.markFrame n) s = .next (s.dequeued.staleMark e.frame.origin (parseMark e.frame.payload)
      (s.epochDiff (parseMark e.frame.payload).epoch)).driven := by
  calc exec (.markFrame n) s
    _ = execMarkFrame n s := rfl
    _ = .next (s.dequeued.takeMark n e.frame.origin (parseMark e.frame.payload)).driven := takeFrame_next hnext _
    _ = .next (s.dequeued.compareMark n e.frame.origin (parseMark e.frame.payload)).driven := by
        rw [State.takeMark_of_passes (s := s.dequeued) n hactive hpass]
    _ = _ := by rw [State.compareMark_of_stale (s := s.dequeued) n _ hlow hhigh]; rfl

/-- Settles O33: the take of a stale frame, by the entry its origin has. -/
theorem staleMarkOnlyMovesTheNumber : Obligations.StaleMarkOnlyMovesTheNumber := by
  intro n s e hnext hactive m d origin noticed hfirst hlast hkind hlanes hlow hhigh
  have hpass : markFault origin m = none := markFault_eq_none_iff.mpr ⟨⟨hfirst, hlast⟩, hkind, hlanes⟩
  rw [exec_markFrame_of_stale n hnext hactive hpass hlow hhigh]
  congr 2
  cases hentry : s.mke.entryOf origin with
  | unknown => exact State.staleMark_of_unknown (s := s.dequeued) m d hentry
  | tracking last p =>
    by_cases hahead : 1 ≤ (m.number - last).toNat ∧ (m.number - last).toNat ≤ 32767
    · exact (State.staleMark_of_ahead (s := s.dequeued) d hentry hahead).trans (if_pos hahead).symm
    · exact (State.staleMark_of_not_ahead (s := s.dequeued) d hentry hahead).trans (if_neg hahead).symm

end Sys2Proof.Machine
end

section
/-! Driven pins: RUNOK and ATTN as `driven` leaves them (R112, R187), and every command ends with its pins driven. -/

namespace Sys2Proof.Machine

/-! ### What `driven` makes of RUNOK and ATTN -/

theorem Level.eq_low_iff {l : Level} : l = .low ↔ ¬ l = .high := by
  cases l <;> decide

theorem State.live_iff {s : State} : s.live = true ↔ s.pins.resetn = .high := by
  simp [State.live]

theorem State.runok_driven (s : State) : s.driven.pins.runok = if s.live then s.runokLevel else .low := by
  unfold State.driven; split <;> rfl

theorem State.attn_driven (s : State) : s.driven.pins.attn = if s.live then s.attnLevel else .low := by
  unfold State.driven; split <;> rfl

theorem State.runokLevel_eq_high_iff (s : State) :
    s.runokLevel = .high ↔ s.stc.station = .active ∧ s.htu.table = [] := by
  simp [State.runokLevel]

theorem State.attnLevel_eq_high_iff (s : State) : s.attnLevel = .high ↔ s.lpt.notices ≠ [] := by
  simp [State.attnLevel]

/-- A pin held low in reset is high where the part is out of reset and its level is high (R173). -/
theorem State.heldLow_eq_high_iff (s : State) (level : Level) :
    (if s.live then level else .low) = .high ↔ s.pins.resetn = .high ∧ level = .high := by
  rw [← State.live_iff]
  split <;> simp [*]

theorem State.runok_driven_eq_high_iff (s : State) : s.driven.pins.runok = .high ↔
    s.pins.resetn = .high ∧ s.stc.station = .active ∧ s.htu.table = [] := by
  rw [State.runok_driven, State.heldLow_eq_high_iff, State.runokLevel_eq_high_iff]

theorem State.attn_driven_eq_high_iff (s : State) : s.driven.pins.attn = .high ↔
    s.pins.resetn = .high ∧ s.lpt.notices ≠ [] := by
  rw [State.attn_driven, State.heldLow_eq_high_iff, State.attnLevel_eq_high_iff]

/-! ### What `driven` does not depend on -/

theorem State.driven_withPending (s : State) (rest : List Instr) :
    (s.withPending rest).driven = s.driven.withPending rest := by
  unfold State.driven
  rw [apply_ite (State.withPending · rest)]
  rfl

/-- The encoder and sensor pins follow their lines, and nothing else changes. -/
def State.withInputs (s : State) (enca encb : Level) (sensors : Four Level) : State :=
  s.withPins { s.pins with enca := enca, encb := encb, sensors := sensors }

theorem State.driven_withInputs (s : State) (enca encb : Level) (sensors : Four Level) :
    (s.withInputs enca encb sensors).driven = s.driven.withInputs enca encb sensors := by
  unfold State.driven
  rw [apply_ite (State.withInputs · enca encb sensors)]
  rfl

theorem PinsDriven.withPending {s : State} (h : PinsDriven s) (rest : List Instr) :
    PinsDriven (s.withPending rest) :=
  (s.driven_withPending rest).trans (congrArg (State.withPending · rest) h)

theorem PinsDriven.withInputs {s : State} (h : PinsDriven s) (enca encb : Level) (sensors : Four Level) :
    PinsDriven (s.withInputs enca encb sensors) :=
  (s.driven_withInputs enca encb sensors).trans (congrArg (State.withInputs · enca encb sensors) h)

theorem pinsDriven_driven (s : State) : PinsDriven s.driven := s.driven_driven

/-! ### How a command ends -/

/-- How a command from `s` can end: no event arises, and at most encoder and sensor pins follow their lines; or an event
ends with its pins driven. -/
inductive CommandEnd (s : State) : Host.Outcome State Fault Refusal → Prop
  | inputs (enca encb : Level) (sensors : Four Level) : CommandEnd s (noEvent (s.withInputs enca encb sensors))
  | event (u : State) : CommandEnd s (event u)

namespace CommandEnd

theorem idle (s : State) : CommandEnd s (noEvent s) := inputs s.pins.enca s.pins.encb s.pins.sensors

theorem ite {s : State} {c : Prop} [Decidable c] {a b : Host.Outcome State Fault Refusal} (ha : CommandEnd s a)
    (hb : CommandEnd s b) : CommandEnd s (if c then a else b) := by
  split
  · exact ha
  · exact hb

/-- An event under a guard. -/
theorem guarded {s : State} {c : Prop} [Decidable c] (u : State) :
    CommandEnd s (if c then Machine.event u else noEvent s) := ite (event u) (idle s)

theorem takeFrame (s : State) (k : FrameKind) (body : State → InEntry → State) :
    CommandEnd s (takeFrame s k body) := by
  rcases takeFrame_cases s k body with h | ⟨_, -, -, -, h⟩
  · exact h ▸ idle s
  · exact h ▸ event _

theorem takeLoopback (s : State) (k : FrameKind) (body : State → Loopback → State) :
    CommandEnd s (takeLoopback s k body) := by
  rcases takeLoopback_cases s k body with h | ⟨_, -, -, -, h⟩
  · exact h ▸ idle s
  · exact h ▸ event _

theorem takeRequest (s : State) (r : Request) (body : State → List Byte → State) :
    CommandEnd s (takeRequest s r body) := by
  rcases takeRequest_cases s r body with h | ⟨_, -, -, h⟩
  · exact h ▸ idle s
  · exact h ▸ event _

/-! The commands that find what they act on in the state, or in the bits they carry. -/

theorem attemptStart (s : State) : CommandEnd s (execAttemptStart s) := by
  unfold execAttemptStart
  refine ite ?_ (idle s)
  split
  · exact event _
  · exact idle s

theorem frameAborted (s : State) : CommandEnd s (execFrameAborted s) := by
  unfold execFrameAborted
  refine ite ?_ (idle s)
  split
  · exact event _
  · exact idle s

theorem ownFrameEnd (s : State) : CommandEnd s (execOwnFrameEnd s) := by
  unfold execOwnFrameEnd
  split
  · exact event _
  · exact idle s

theorem receiveError (bits : List Bool) (s : State) : CommandEnd s (execReceiveError bits s) := by
  unfold execReceiveError
  split
  · exact event _
  · exact idle s

theorem validFrameEnd (bits : List Bool) (o : NoticeOrder) (s : State) :
    CommandEnd s (execValidFrameEnd bits o s) := by
  unfold execValidFrameEnd
  split
  · exact event _
  · exact idle s

theorem localTransaction (bits : List Bool) (s : State) : CommandEnd s (execLocalTransaction bits s) := by
  unfold execLocalTransaction
  refine ite ?_ (idle s)
  split
  · exact event _
  · exact event _

theorem undefined (s : State) : CommandEnd s (execUndefined s) := by
  unfold execUndefined
  split
  · exact event _
  · exact idle s

end CommandEnd

/-- Every row of the command table ends in one of these two ways. -/
theorem exec_commandEnd (c : Instr) (s : State) : CommandEnd s (exec c s) := by
  cases c with
  | coldReset lcs => exact .event _
  | resetnHeldLow => exact .event _
  -- the lines of the web side
  | encoderCount line order =>
    cases line with
    | enca => exact .ite (.event _) (.inputs s.pins.enca.flip s.pins.encb s.pins.sensors)
    | encb => exact .ite (.event _) (.inputs s.pins.enca s.pins.encb.flip s.pins.sensors)
  | encoderError => exact .ite (.event _) (.inputs s.pins.enca.flip s.pins.encb.flip s.pins.sensors)
  | sensorEdge n level order =>
    exact .ite (.event _) (.inputs s.pins.enca s.pins.encb (s.pins.sensors.set n level))
  -- the timebase and its timers
  | timebaseAdvance => exact .guarded _
  | msPulseEnd channel => exact .guarded _
  | claimStale origin => exact .guarded _
  | refreshExpiry => exact .guarded _
  | quietExpiry => exact .guarded _
  | discardExpiry => exact .guarded _
  | joinDone notices => exact .guarded _
  -- the line bus
  | lineIdle => exact .guarded _
  | yieldGapEnd => exact .guarded _
  | startBitRead => exact .guarded _
  | arbitrationLost => exact .guarded _
  | attemptStart => exact .attemptStart s
  | frameAborted => exact .frameAborted s
  | ownFrameEnd => exact .ownFrameEnd s
  | receiveError bits => exact .receiveError bits s
  | validFrameEnd bits notices => exact .validFrameEnd bits notices s
  -- the takes of frames and of the loopback
  | markFrame notices =>
    change CommandEnd s (execMarkFrame notices s)
    exact .takeFrame s _ _
  | zeroFrame => exact .takeFrame s _ _
  | holdFrame => exact .takeFrame s _ _
  | releaseFrame => exact .takeFrame s _ _
  | dismissFrame => exact .takeFrame s _ _
  | claimsFrame notices => exact .takeFrame s _ _
  | censusFrame => exact .takeFrame s _ _
  | cutoverFrame => exact .takeFrame s _ _
  | zeroLoopback => exact .takeLoopback s _ _
  | cutoverLoopback =>
    change CommandEnd s (execCutoverLoopback s)
    exact .takeLoopback s _ _
  -- the local port
  | localTransaction bits => exact .localTransaction bits s
  | undefined => exact .undefined s
  | cutoverAt => exact .ite (.idle s) (.takeRequest s _ _)
  | cutoverNow => exact .ite (.takeRequest s _ _) (.idle s)
  | configure | restart | readState | readCounters | takeNotices | readMarks | postMark | zero | readHolds | hold
  | release | dismiss | cancelCutover | readRoll | freeRoll => exact .takeRequest s _ _

/-! ### The step -/

theorem CommandEnd.pinsDriven {s t : State} (h : CommandEnd s (.next t)) (hs : PinsDriven s) : PinsDriven t := by
  generalize ho : Host.Outcome.next t = o at h
  cases h with
  | inputs enca encb sensors =>
    cases ho
    exact hs.withInputs enca encb sensors
  | event u =>
    cases ho
    exact pinsDriven_driven u

theorem step_pinsDriven {s t : State} (hs : PinsDriven s) (h : step s = .next t) : PinsDriven t := by
  unfold step at h
  split at h
  · cases h
    exact hs
  · next c rest _ =>
    exact (h ▸ exec_commandEnd c (s.withPending rest)).pinsDriven (hs.withPending rest)

/-- Settles O12: a step leaves the pins driven, and driven pins show RUNOK and ATTN so. -/
theorem runokAndAttn : Obligations.RunokAndAttn := by
  intro s t hs hstep
  have hdriven : t.driven = t := step_pinsDriven hs hstep
  have hrunok := t.runok_driven_eq_high_iff
  have hattn := t.attn_driven_eq_high_iff
  rw [hdriven] at hrunok hattn
  exact ⟨hrunok, Level.eq_low_iff.trans (not_congr hrunok), hattn, Level.eq_low_iff.trans (not_congr hattn)⟩

end Sys2Proof.Machine
end

section
/-! HOLD and RELEASE frames: the checks of their content (R97), and what they make of the hold table (R98, R99). -/

namespace Sys2Proof.Machine

/-! ### The checks of R97 -/

theorem reasonFits_iff {n : Nat} {reason : Reason} : reasonFits n reason = true ↔
    (n < 3 ∧ (reason = .mark ∨ reason = .operator)) ∨ (n = 3 ∧ (reason = .desync ∨ reason = .sight)) := by
  cases reason <;> simp [reasonFits]

theorem lt_four_of_reasonFits {n : Nat} {reason : Reason} (h : reasonFits n reason = true) : n < 4 := by
  rcases reasonFits_iff.mp h with ⟨hn, -⟩ | ⟨hn, -⟩ <;> omega

/-- The claim number of a HOLD frame is at most 3 where it may carry the reason. -/
theorem holdOk_iff {o n : Nat} {reason : Reason} {ref : Option MarkRef} : holdOk o n reason ref = true ↔
    1 ≤ o ∧ o ≤ 24 ∧
      ((n < 3 ∧ (reason = .mark ∨ reason = .operator)) ∨ (n = 3 ∧ (reason = .desync ∨ reason = .sight))) ∧
      (∀ ro rn, ref = some (ro, rn) → reason = .mark ∧ 1 ≤ ro ∧ ro ≤ 24) := by
  rw [← reasonFits_iff]
  by_cases hfits : reasonFits n reason = true
  · have hclaim : n < 4 := lt_four_of_reasonFits hfits
    cases ref with
    | none => simp [holdOk, hfits, hclaim]
    | some mark => simp [holdOk, hfits, hclaim, Prod.ext_iff, and_assoc]
  · simp [holdOk, hfits]

/-! ### Members of the hold table -/

@[simp] theorem HoldRecord.is_iff {r : HoldRecord} {o n : Nat} : r.is o n = true ↔ r.origin = o ∧ r.claim = n := by
  simp [HoldRecord.is]

@[simp] theorem mem_dropHold {r : HoldRecord} {o n : Nat} {table : List HoldRecord} :
    r ∈ dropHold o n table ↔ r ∈ table ∧ ¬ (r.origin = o ∧ r.claim = n) := by
  rw [dropHold, List.mem_filter, Bool.not_eq_true', ← Bool.not_eq_true, HoldRecord.is_iff]

/-- A record put in takes the place of the one with its identity. -/
@[simp] theorem mem_putHold {r q : HoldRecord} {table : List HoldRecord} :
    r ∈ putHold q table ↔ r = q ∨ (r ∈ table ∧ ¬ (r.origin = q.origin ∧ r.claim = q.claim)) := by
  rw [putHold, mem_insertByKey, ← dropHold, mem_dropHold]

/-! ### HOLD frames (R98) -/

/-- The record of a HOLD frame goes into the table, and its origin is heard now. -/
def State.held (s : State) (o n : Nat) (reason : Reason) (ref : Option MarkRef) : State :=
  s.withHtu { s.htu with
    table := putHold ⟨o, n, reason, ref, false⟩ s.htu.table
    lastHeard := modifyAt (fun _ => some s.stc.now) (o - 1) s.htu.lastHeard }

/-- CLAIM REVIVED follows where the record replaced was STALE. -/
theorem State.holdFrom_eq (s : State) (o n : Nat) (reason : Reason) (ref : Option MarkRef) :
    s.holdFrom o n reason ref = if (s.htu.find o n).any HoldRecord.stale
      then (s.held o n reason ref).notice .claimRevived (some o) none (some 1#32) else s.held o n reason ref := by
  unfold State.holdFrom
  cases s.htu.find o n <;> rfl

theorem exec_holdFrame_of_ok {s : State} {e : InEntry} {n : Nat} {reason : Reason} {ref : Option MarkRef}
    (hnext : FrameNext s .hold e) (hparse : parseHold e.frame.payload = (n, reason, ref))
    (hok : holdOk e.frame.origin n reason ref = true) :
    exec .holdFrame s = .next (s.dequeued.holdFrom e.frame.origin n reason ref).driven := by
  calc exec .holdFrame s
    _ = .next (s.dequeued.takeHold e).driven := takeFrame_next hnext _
    _ = _ := by simp [State.takeHold, hparse, hok]

theorem exec_holdFrame_of_not_ok {s : State} {e : InEntry} {n : Nat} {reason : Reason} {ref : Option MarkRef}
    (hnext : FrameNext s .hold e) (hparse : parseHold e.frame.payload = (n, reason, ref))
    (hfail : ¬ holdOk e.frame.origin n reason ref = true) :
    exec .holdFrame s =
      .next (s.dequeued.notice .claimInvalid (some e.frame.origin) none (some 2#32)).driven := by
  calc exec .holdFrame s
    _ = .next (s.dequeued.takeHold e).driven := takeFrame_next hnext _
    _ = .next (s.dequeued.claimInvalid e.frame).driven := by simp [State.takeHold, hparse, hfail]
    _ = _ := by rw [State.claimInvalid, hnext.kind]; rfl

/-! ### RELEASE frames (R99) -/

/-- The record of a RELEASE frame leaves the table, and its origin is heard now. -/
def State.freed (s : State) (o n : Nat) : State :=
  s.withHtu { s.htu with
    table := dropHold o n s.htu.table
    lastHeard := modifyAt (fun _ => some s.stc.now) (o - 1) s.htu.lastHeard }

theorem exec_releaseFrame_of_ok {s : State} {e : InEntry} (hnext : FrameNext s .release e)
    (horigin : validStation e.frame.origin = true) (hclaim : byteAt e.frame.payload 0 < 4) :
    exec .releaseFrame s = .next (s.dequeued.freed e.frame.origin (byteAt e.frame.payload 0)).driven := by
  calc exec .releaseFrame s
    _ = .next (s.dequeued.takeRelease e).driven := takeFrame_next hnext _
    _ = _ := by
      rw [State.takeRelease, if_pos (by rw [horigin, decide_eq_true hclaim]; rfl)]
      rfl

theorem exec_releaseFrame_of_fails {s : State} {e : InEntry} (hnext : FrameNext s .release e)
    (hfail : ¬ (validStation e.frame.origin = true ∧ byteAt e.frame.payload 0 < 4)) :
    exec .releaseFrame s =
      .next (s.dequeued.notice .claimInvalid (some e.frame.origin) none (some 3#32)).driven := by
  calc exec .releaseFrame s
    _ = .next (s.dequeued.takeRelease e).driven := takeFrame_next hnext _
    _ = .next (s.dequeued.claimInvalid e.frame).driven := by
        rw [State.takeRelease, if_neg (by rwa [Bool.and_eq_true, decide_eq_true_iff])]
    _ = _ := by rw [State.claimInvalid, hnext.kind]; rfl

/-- Settles O38: for each frame, the take where the content passes and the take where it fails. -/
theorem holdAndReleaseFrames : Obligations.HoldAndReleaseFrames := by
  constructor
  · intro s e hnext o n reason ref good
    have hok : holdOk o n reason ref = true ↔ good := holdOk_iff
    constructor
    · intro hgood
      refine ⟨_, s.dequeued.held o n reason ref, exec_holdFrame_of_ok hnext rfl (hok.mpr hgood), rfl, ?_,
        s.dequeued.holdFrom_eq o n reason ref⟩
      exact fun r => mem_putHold
    · exact fun hbad => exec_holdFrame_of_not_ok hnext rfl (mt hok.mp hbad)
  · intro s e hnext o n
    constructor
    · intro hfirst hlast hclaim
      refine ⟨_, exec_releaseFrame_of_ok hnext (validStation_iff.mpr ⟨hfirst, hlast⟩) (by omega), rfl, ?_⟩
      exact fun r => mem_dropHold
    · intro hbad
      refine exec_releaseFrame_of_fails hnext ?_
      rw [validStation_iff]
      omega

end Sys2Proof.Machine
end

section
/-! The cold reset: the blocks it leaves at their cold values, and LTX recessive with no attempt under way (R138, R164,
R173). -/

namespace Sys2Proof.Machine

/-! ### LTX as `driven` leaves it -/

theorem State.ltx_driven (s : State) : s.driven.pins.ltx = if s.live then s.ltxLevel else .recessive := by
  unfold State.driven; split <;> rfl

theorem State.ltxLevel_of_no_attempt {s : State} (h : s.lbi.attempt = none) : s.ltxLevel = .recessive := by
  simp [State.ltxLevel, h]

/-- LTX is recessive where no attempt is under way, in reset or out of it. -/
theorem State.ltx_driven_of_no_attempt {s : State} (h : s.lbi.attempt = none) : s.driven.pins.ltx = .recessive := by
  rw [State.ltx_driven, State.ltxLevel_of_no_attempt h, ite_self]

/-! ### What a cold reset leaves, before its pins are driven -/

/-- Every block at its cold value; the input pins, the commands waiting and the count of free values as they were
(R173, log 9). -/
def State.coldReset (s : State) (lcs : Level) : State :=
  { State.reset with
    mke := { Mke.cold with freeUsed := s.mke.freeUsed }
    pins := s.pins.afterReset lcs
    pending := s.pending }

theorem exec_coldReset (s : State) (lcs : Level) : exec (.coldReset lcs) s = .next (s.coldReset lcs).driven := rfl

@[simp] theorem State.lbi_coldReset (s : State) (lcs : Level) : (s.coldReset lcs).lbi = Lbi.cold := rfl
@[simp] theorem State.rmu_coldReset (s : State) (lcs : Level) : (s.coldReset lcs).rmu = Rmu.cold := rfl
@[simp] theorem State.stc_coldReset (s : State) (lcs : Level) : (s.coldReset lcs).stc = Stc.cold := rfl

/-- Settles O4: the blocks have their cold values, among them no attempt, which leaves LTX recessive. -/
theorem coldResetLeavesLineAndRollEmpty : Obligations.ColdResetLeavesLineAndRollEmpty := by
  intro lcs s
  have hltx : (s.coldReset lcs).driven.pins.ltx = .recessive := State.ltx_driven_of_no_attempt rfl
  refine ⟨_, exec_coldReset s lcs, ?_⟩
  simp [hltx, Lbi.cold, Rmu.cold, Stc.cold, Counters.cold]

end Sys2Proof.Machine
end

section
/-! READ COUNTERS: its payload, which 10 section 10.4 lays out in 24 bytes, and the command (R183). -/

namespace Sys2Proof.Machine

/-! ### The payload -/

@[simp] theorem length_bytesBE (count n : Nat) : (bytesBE count n).length = count := by
  induction count with
  | zero => rfl
  | succ c ih => rw [bytesBE, List.length_cons, ih]

/-- The eight lifetime counters in the order of 10 section 10.4, 2 bytes each. -/
def Counters.bytes (c : Counters) : List Byte :=
  bytesBE 2 c.framesAborted ++ bytesBE 2 c.framesDropped ++ bytesBE 2 c.receiveErrors ++ bytesBE 2 c.inboundOverruns
    ++ bytesBE 2 c.marksSpilled ++ bytesBE 2 c.gaps ++ bytesBE 2 c.setsLost ++ bytesBE 2 c.encoderErrors

/-- The last fault record: kind, time stamp and origin, all 0 where there was no fault. -/
def faultBytes : Option FaultRecord → List Byte
  | none => [0, 0, 0, 0, 0, 0]
  | some f => BitVec.ofNat 8 f.kind.code :: (bytesBE 4 f.time.toNat ++ [BitVec.ofNat 8 f.origin])

@[simp] theorem Counters.length_bytes (c : Counters) : c.bytes.length = 16 := by
  simp only [Counters.bytes, List.length_append, length_bytesBE]

@[simp] theorem length_faultBytes (f : Option FaultRecord) : (faultBytes f).length = 6 := by
  cases f with
  | none => rfl
  | some f => simp only [faultBytes, List.length_cons, List.length_append, length_bytesBE, List.length_nil]

/-- The payload the model gives is the three parts R183 names. -/
theorem State.counterBytes_eq (s : State) :
    s.counterBytes = s.stc.counters.bytes ++ faultBytes s.stc.fault ++ bytesBE 2 s.lpt.lost := by
  unfold State.counterBytes
  cases s.stc.fault with
  | none => rfl
  | some f => rfl

theorem State.length_counterBytes (s : State) : s.counterBytes.length = 24 := by
  simp only [State.counterBytes_eq, List.length_append, Counters.length_bytes, length_faultBytes, length_bytesBE]

/-! ### The command -/

/-- No station state refuses READ COUNTERS (R166). -/
theorem refusal_readCounters (st : StationState) : Request.readCounters.refusal st = none := by
  cases st <;> rfl

/-- The answer fills the slot and touches nothing else, so nothing it reports is cleared. -/
theorem exec_readCounters {s : State} (hlive : s.live = true)
    (hslot : s.lpt.slot = .preparing Request.readCounters.code []) :
    exec .readCounters s = .next (s.withLpt { s.lpt with slot := .ready ⟨0x04, .ok, s.counterBytes⟩ }).driven :=
  takeRequest_next ⟨hlive, hslot, refusal_readCounters s.stc.station, rfl⟩ _

/-- Settles O55: the request is admitted in every station state, and its payload is the three parts of R183. -/
theorem readCountersReturnsCounters : Obligations.ReadCountersReturnsCounters := by
  refine ⟨rfl, fun s hlive hslot => ?_⟩
  have hexec := exec_readCounters hlive hslot
  have hlength := s.length_counterBytes
  rw [State.counterBytes_eq] at hexec hlength
  exact ⟨hlength, hexec⟩

end Sys2Proof.Machine
end

section
/-! What a command can do: its effect before the pins are driven, said once for every row of the command table. -/

namespace Sys2Proof.Machine

/-! ### What stands next -/

theorem FrameNext.of_nextOf {s : State} {k : FrameKind} {e : InEntry} (hlive : s.live = true)
    (hconf : s.configured = true) (h : s.lbi.nextOf k = some e) : FrameNext s k e := by
  unfold Lbi.nextOf at h
  split at h
  · cases h
  · next x xs hin =>
    split at h
    · next hok =>
      cases h
      simp only [Bool.and_eq_true, Bool.not_eq_true', beq_iff_eq] at hok
      exact ⟨hlive, hconf, hok.1, by rw [hin]; rfl, hok.2⟩
    · cases h

theorem LoopbackNext.of_nextLoopback {s : State} {k : FrameKind} {b : Loopback} (hlive : s.live = true)
    (hconf : s.configured = true) (h : s.lbi.nextLoopback k = some b) : LoopbackNext s k b := by
  unfold Lbi.nextLoopback at h
  split at h
  · cases h
  · next lb hlb =>
    split at h
    · next hok =>
      cases h
      simp only [Bool.and_eq_true, beq_iff_eq] at hok
      exact ⟨hlive, hconf, hlb, hok.1, hok.2⟩
    · cases h

/-! ### The effects -/

/-- What a command does where its event arises, before the pins are driven. -/
inductive Effect (s : State) : Instr → State → Prop
  | coldReset (lcs : Level) : Effect s (.coldReset lcs) (s.coldReset lcs)
  | resetnHeldLow : Effect s .resetnHeldLow
      ((s.withPins { s.pins with resetn := .low }).withLbi { s.lbi with attempt := none })
  | encoderCount (line : EncoderLine) (order : List MoveBlock) (live : s.live = true)
      (configured : s.configured = true) :
      Effect s (.encoderCount line order) ((s.withPins (s.pins.toggle line)).decodeEncoder order)
  | encoderError (live : s.live = true) (configured : s.configured = true) :
      Effect s .encoderError ((s.withPins ((s.pins.toggle .enca).toggle .encb)).decodeEncoder [])
  | sensorEdge (n : Fin 4) (level : Level) (order : List MoveBlock) (live : s.live = true)
      (configured : s.configured = true) : Effect s (.sensorEdge n level order)
      ((s.withPins { s.pins with sensors := s.pins.sensors.set n level }).filterLevel n level order)
  | timebaseAdvance (live : s.live = true) :
      Effect s .timebaseAdvance (s.withStc { s.stc with now := s.stc.now + 1 })
  | msPulseEnd (ch : Fin 4) (live : s.live = true) (configured : s.configured = true)
      (ended : s.msEndReached ch = true) :
      Effect s (.msPulseEnd ch) (((s.idleChannel ch).pulseEnded ch).settleSpill)
  | claimStale (o : Nat) (live : s.live = true) (configured : s.configured = true)
      (silent : s.silentTooLong o = true) : Effect s (.claimStale o) (s.makeStale o)
  | refreshExpiry (live : s.live = true) (onLine : s.onLine = true) : Effect s .refreshExpiry s.refreshNow
  | quietExpiry (live : s.live = true) (quiet : s.lbi.mode = .quiet) :
      Effect s .quietExpiry (s.withLbi { s.lbi with mode := .ready, quiet := none })
  | discardExpiry (live : s.live = true) :
      Effect s .discardExpiry (s.withRmu { s.rmu with pendingRead := none })
  | joinDone (o : NoticeOrder) (live : s.live = true) (joining : s.stc.station = .joining) :
      Effect s (.joinDone o) (s.endJoin o)
  | lineIdle (live : s.live = true) :
      Effect s .lineIdle (s.withLbi { s.lbi with line := .idle, recessiveRun := 11 })
  | yieldGapEnd (live : s.live = true) :
      Effect s .yieldGapEnd (s.withLbi { s.lbi with yieldPending := false, recessiveRun := 19 })
  | startBitRead (live : s.live = true) : Effect s .startBitRead (s.withLbi { s.lbi with
      line := if s.lbi.line = .idle then .frame else s.lbi.line, recessiveRun := 0 })
  | arbitrationLost (live : s.live = true) :
      Effect s .arbitrationLost (s.withLbi { s.lbi with attempt := none, recessiveRun := 0 })
  | attemptStart (x : SendSlot) (l : Lbi) (live : s.live = true) (ready : s.lbi.mode = .ready)
      (startable : s.lbi.startable = some (x, l)) : Effect s .attemptStart (s.beginAttempt x l)
  | frameAborted (x : SendSlot) (live : s.live = true) (attempt : s.lbi.attempt.isSome = true)
      (slot : s.lbi.slot = some x) : Effect s .frameAborted (s.abortAttempt x)
  | ownFrameEnd (f : LineFrame) (x : SendSlot) (live : s.live = true) (attempt : s.lbi.attempt = some f)
      (slot : s.lbi.slot = some x) : Effect s .ownFrameEnd (s.endAttempt f x)
  | receiveError (bits : List Bool) (cause : Nat) (live : s.live = true) :
      Effect s (.receiveError bits) (s.discardFrame cause (trailingRecessive bits))
  | validFrameEnd (bits : List Bool) (o : NoticeOrder) (f : LineFrame) (live : s.live = true) :
      Effect s (.validFrameEnd bits o) (s.receiveFrame f (trailingRecessive bits) o)
  | markFrame (o : NoticeOrder) (e : InEntry) (next : FrameNext s .mark e) :
      Effect s (.markFrame o) (s.dequeued.takeMark o e.frame.origin (parseMark e.frame.payload))
  | zeroFrame (e : InEntry) (next : FrameNext s .zero e) : Effect s .zeroFrame (s.dequeued.takeZero e)
  | zeroLoopback (b : Loopback) (next : LoopbackNext s .zero b) : Effect s .zeroLoopback (s.looped.takeOwnZero b)
  | cutoverLoopback (b : Loopback) (next : LoopbackNext s .cutover b) :
      Effect s .cutoverLoopback (s.looped.announce (parseCutover b.frame.payload).2 .sent)
  | holdFrame (e : InEntry) (next : FrameNext s .hold e) : Effect s .holdFrame (s.dequeued.takeHold e)
  | releaseFrame (e : InEntry) (next : FrameNext s .release e) : Effect s .releaseFrame (s.dequeued.takeRelease e)
  | dismissFrame (e : InEntry) (next : FrameNext s .dismiss e) : Effect s .dismissFrame (s.dequeued.takeDismiss e)
  | claimsFrame (o : NoticeOrder) (e : InEntry) (next : FrameNext s .claims e) :
      Effect s (.claimsFrame o) (s.dequeued.takeClaims o e)
  | censusFrame (e : InEntry) (next : FrameNext s .census e) : Effect s .censusFrame (s.dequeued.takeCensus e)
  | cutoverFrame (e : InEntry) (next : FrameNext s .cutover e) : Effect s .cutoverFrame (s.dequeued.takeCutover e)
  | lcsRise (bits : List Bool) (live : s.live = true) :
      Effect s (.localTransaction bits) (s.withPins { s.pins with lcs := .high })
  | localTransaction (bits : List Bool) (live : s.live = true) : Effect s (.localTransaction bits) (s.transact bits)
  /-- A request answered with nothing else done: refused by the station state or its length, unknown, or a read. -/
  | answered (c : Instr) (code : Byte) (status : Status) (payload : List Byte) (live : s.live = true) :
      Effect s c (s.answerCode code status payload)
  | configure (p : List Byte) (req : Requested s .configure p) : Effect s .configure (s.takeConfigure p)
  | restart (p : List Byte) (req : Requested s .restart p) : Effect s .restart (s.takeRestart p)
  | takeNotices (p : List Byte) (req : Requested s .takeNotices p) : Effect s .takeNotices (s.takeNoticesNow p)
  | readMarks (p : List Byte) (req : Requested s .readMarks p) : Effect s .readMarks (s.takeReadMarks p)
  | postMark (p : List Byte) (req : Requested s .postMark p) : Effect s .postMark (s.takePost p)
  | zero (p : List Byte) (req : Requested s .zero p) : Effect s .zero (s.takeZeroRequest p)
  | readHolds (p : List Byte) (req : Requested s .readHolds p) : Effect s .readHolds (s.takeReadHolds p)
  | hold (p : List Byte) (req : Requested s .hold p) : Effect s .hold (s.takeHoldRequest p)
  | release (p : List Byte) (req : Requested s .release p) : Effect s .release (s.takeReleaseRequest p)
  | dismiss (p : List Byte) (req : Requested s .dismiss p) : Effect s .dismiss (s.takeDismissRequest p)
  | cutoverAt (p : List Byte) (req : Requested s .cutover p) : Effect s .cutoverAt (s.takeCutoverAt p)
  | cutoverNow (p : List Byte) (req : Requested s .cutover p) : Effect s .cutoverNow (s.takeCutoverNow p)
  | cancelCutover (p : List Byte) (req : Requested s .cancelCutover p) : Effect s .cancelCutover (s.takeCancel p)
  | readRoll (p : List Byte) (req : Requested s .readRoll p) : Effect s .readRoll (s.takeReadRoll p)
  | freeRoll (p : List Byte) (req : Requested s .freeRoll p) : Effect s .freeRoll (s.takeFreeRoll p)

/-- How a command ends: its event cannot arise, and then at most encoder and sensor pins follow their lines, none where
the part is configured and out of reset; or its effect takes place and the pins are driven. -/
inductive Ends (s : State) (c : Instr) : Host.Outcome State Fault Refusal → Prop
  | inputs (enca encb : Level) (sensors : Four Level)
      (still : s.live = true → s.configured = true → s.withInputs enca encb sensors = s) :
      Ends s c (noEvent (s.withInputs enca encb sensors))
  | effect {u : State} (h : Effect s c u) : Ends s c (event u)

namespace Ends

theorem idle (s : State) (c : Instr) : Ends s c (noEvent s) :=
  inputs s.pins.enca s.pins.encb s.pins.sensors (fun _ _ => rfl)

/-- An event under a guard. -/
theorem guarded {s u : State} {c : Instr} {g : Bool} (h : g = true → Effect s c u) :
    Ends s c (if g then event u else noEvent s) := by
  split
  · next hg => exact effect (h hg)
  · exact idle s c

/-- A command at the input lines: outside the configured states, and in reset, only the pins change. -/
theorem lines {s u : State} {c : Instr} (enca encb : Level) (sensors : Four Level)
    (h : s.live = true → s.configured = true → Effect s c u) :
    Ends s c (if s.live && s.configured then event u else noEvent (s.withInputs enca encb sensors)) := by
  split
  · next hg =>
    rw [Bool.and_eq_true] at hg
    exact effect (h hg.1 hg.2)
  · next hg => exact inputs _ _ _ fun hl hc => absurd (by rw [hl, hc]; rfl) hg

theorem takeFrame {s : State} {c : Instr} {k : FrameKind} {body : State → InEntry → State}
    (h : ∀ e, FrameNext s k e → Effect s c (body s.dequeued e)) : Ends s c (takeFrame s k body) := by
  rcases takeFrame_cases s k body with hn | ⟨e, hl, hc, hn, ht⟩
  · exact hn ▸ idle s c
  · exact ht ▸ effect (h e (.of_nextOf hl hc hn))

theorem takeLoopback {s : State} {c : Instr} {k : FrameKind} {body : State → Loopback → State}
    (h : ∀ b, LoopbackNext s k b → Effect s c (body s.looped b)) : Ends s c (takeLoopback s k body) := by
  rcases takeLoopback_cases s k body with hn | ⟨b, hl, hc, hn, ht⟩
  · exact hn ▸ idle s c
  · exact ht ▸ effect (h b (.of_nextLoopback hl hc hn))

theorem takeRequest {s : State} {c : Instr} {r : Request} {body : State → List Byte → State}
    (h : ∀ p, Requested s r p → Effect s c (body s p)) : Ends s c (takeRequest s r body) := by
  rcases takeRequest_cases s r body with hn | ⟨p, hl, hs, ht⟩
  · exact hn ▸ idle s c
  · rw [ht]
    refine effect ?_
    unfold State.decodeRequest
    split
    · exact .answered _ _ _ _ hl
    · next hr =>
      split
      · next hp => exact h p ⟨hl, hs, hr, hp⟩
      · exact .answered _ _ _ _ hl

/-- A read: its answer is all it does. -/
theorem read {s : State} {c : Instr} {r : Request} (payload : State → List Byte) :
    Ends s c (Machine.takeRequest s r fun t _ => t.answer r .ok (payload t)) :=
  takeRequest fun _ req => .answered _ _ _ _ req.live

end Ends

/-- Every row of the command table ends by its effect, or finds no event. -/
theorem exec_ends (c : Instr) (s : State) : Ends s c (exec c s) := by
  cases c with
  | coldReset lcs => exact .effect (.coldReset lcs)
  | resetnHeldLow => exact .effect .resetnHeldLow
  -- the lines of the web side
  | encoderCount line order =>
    cases line with
    | enca => exact .lines s.pins.enca.flip s.pins.encb s.pins.sensors (.encoderCount .enca order)
    | encb => exact .lines s.pins.enca s.pins.encb.flip s.pins.sensors (.encoderCount .encb order)
  | encoderError => exact .lines s.pins.enca.flip s.pins.encb.flip s.pins.sensors .encoderError
  | sensorEdge n level order =>
    exact .lines s.pins.enca s.pins.encb (s.pins.sensors.set n level) (.sensorEdge n level order)
  -- the timebase and its timers
  | timebaseAdvance => exact .guarded .timebaseAdvance
  | msPulseEnd ch =>
    refine .guarded fun h => ?_
    simp only [Bool.and_eq_true] at h
    exact .msPulseEnd ch h.1.1 h.1.2 h.2
  | claimStale o =>
    refine .guarded fun h => ?_
    simp only [Bool.and_eq_true] at h
    exact .claimStale o h.1.1 h.1.2 h.2
  | refreshExpiry =>
    refine .guarded fun h => ?_
    simp only [Bool.and_eq_true] at h
    exact .refreshExpiry h.1.1 h.1.2
  | quietExpiry =>
    refine .guarded fun h => ?_
    simp only [Bool.and_eq_true, beq_iff_eq] at h
    exact .quietExpiry h.1.1 h.1.2
  | discardExpiry =>
    refine .guarded fun h => ?_
    simp only [Bool.and_eq_true] at h
    exact .discardExpiry h.1
  | joinDone o =>
    refine .guarded fun h => ?_
    simp only [Bool.and_eq_true, beq_iff_eq] at h
    exact .joinDone o h.1.1 h.1.2
  -- the line bus
  | lineIdle =>
    refine .guarded fun h => ?_
    simp only [State.reading, Bool.and_eq_true] at h
    exact .lineIdle h.1.1
  | yieldGapEnd =>
    refine .guarded fun h => ?_
    simp only [State.reading, Bool.and_eq_true] at h
    exact .yieldGapEnd h.1.1.1
  | startBitRead =>
    refine .guarded fun h => ?_
    simp only [State.reading, Bool.and_eq_true] at h
    exact .startBitRead h.1.1
  | arbitrationLost =>
    refine .guarded fun h => ?_
    simp only [Bool.and_eq_true] at h
    exact .arbitrationLost h.1
  | attemptStart =>
    change Ends s _ (execAttemptStart s)
    unfold execAttemptStart
    split
    · next h =>
      simp only [Bool.and_eq_true, beq_iff_eq] at h
      split
      · next x l hx => exact .effect (.attemptStart x l h.1.1 h.1.2 hx)
      · exact .idle s _
    · exact .idle s _
  | frameAborted =>
    change Ends s _ (execFrameAborted s)
    unfold execFrameAborted
    split
    · next h =>
      simp only [Bool.and_eq_true] at h
      split
      · next x hx => exact .effect (.frameAborted x h.1 h.2 hx)
      · exact .idle s _
    · exact .idle s _
  | ownFrameEnd =>
    change Ends s _ (execOwnFrameEnd s)
    unfold execOwnFrameEnd
    split
    · next f x hl hf hx => exact .effect (.ownFrameEnd f x hl hf hx)
    · exact .idle s _
  | receiveError bits =>
    change Ends s _ (execReceiveError bits s)
    unfold execReceiveError
    split
    · next cause hr _ =>
      simp only [State.receiving, State.reading, Bool.and_eq_true] at hr
      exact .effect (.receiveError bits cause hr.1.1.1)
    · exact .idle s _
  | validFrameEnd bits o =>
    change Ends s _ (execValidFrameEnd bits o s)
    unfold execValidFrameEnd
    split
    · next f hr _ =>
      simp only [State.receiving, State.reading, Bool.and_eq_true] at hr
      exact .effect (.validFrameEnd bits o f hr.1.1.1)
    · exact .idle s _
  -- the takes of frames and of the loopback
  | markFrame o =>
    change Ends s _ (execMarkFrame o s)
    exact .takeFrame (.markFrame o)
  | zeroFrame => exact .takeFrame .zeroFrame
  | zeroLoopback => exact .takeLoopback .zeroLoopback
  | cutoverLoopback =>
    change Ends s _ (execCutoverLoopback s)
    exact .takeLoopback .cutoverLoopback
  | holdFrame => exact .takeFrame .holdFrame
  | releaseFrame => exact .takeFrame .releaseFrame
  | dismissFrame => exact .takeFrame .dismissFrame
  | claimsFrame o => exact .takeFrame (.claimsFrame o)
  | censusFrame => exact .takeFrame .censusFrame
  | cutoverFrame => exact .takeFrame .cutoverFrame
  -- the local port
  | localTransaction bits =>
    change Ends s _ (execLocalTransaction bits s)
    unfold execLocalTransaction
    split
    · next hl =>
      split
      · exact .effect (.localTransaction bits hl)
      · exact .effect (.lcsRise bits hl)
    · exact .idle s _
  | undefined =>
    change Ends s _ (execUndefined s)
    unfold execUndefined
    split
    · next hl _ => exact .effect (.answered _ _ _ _ hl)
    · exact .idle s _
  | configure => exact .takeRequest .configure
  | restart => exact .takeRequest .restart
  | readState => exact .read State.picture
  | readCounters => exact .read State.counterBytes
  | takeNotices => exact .takeRequest .takeNotices
  | readMarks => exact .takeRequest .readMarks
  | postMark => exact .takeRequest .postMark
  | zero => exact .takeRequest .zero
  | readHolds => exact .takeRequest .readHolds
  | hold => exact .takeRequest .hold
  | release => exact .takeRequest .release
  | dismiss => exact .takeRequest .dismiss
  | cutoverAt =>
    change Ends s _ (execCutoverAt s)
    unfold execCutoverAt
    split
    · exact .idle s _
    · exact .takeRequest .cutoverAt
  | cutoverNow =>
    change Ends s _ (execCutoverNow s)
    unfold execCutoverNow
    split
    · exact .takeRequest .cutoverNow
    · exact .idle s _
  | cancelCutover => exact .takeRequest .cancelCutover
  | readRoll => exact .takeRequest .readRoll
  | freeRoll => exact .takeRequest .freeRoll

/-- A command's next state, taken apart. -/
theorem exec_cases {c : Instr} {s t : State} (h : exec c s = .next t) :
    (∃ enca encb sensors, t = s.withInputs enca encb sensors ∧
      (s.live = true → s.configured = true → t = s)) ∨ ∃ u, Effect s c u ∧ t = u.driven := by
  have he := exec_ends c s
  rw [h] at he
  generalize ho : Host.Outcome.next t = o at he
  cases he with
  | inputs enca encb sensors still => cases ho; exact .inl ⟨enca, encb, sensors, rfl, still⟩
  | effect hu => cases ho; exact .inr ⟨_, hu, rfl⟩

/-- A command always answers. -/
theorem exec_answers (c : Instr) (s : State) : ∃ t, exec c s = .next t := by
  have he := exec_ends c s
  generalize exec c s = o at he
  cases he with
  | inputs enca encb sensors still => exact ⟨_, rfl⟩
  | effect hu => exact ⟨_, rfl⟩

/-- Every effect but those of the reset itself takes a part that is out of reset. -/
theorem Effect.live {s u : State} {c : Instr} (h : Effect s c u) (hcold : ∀ lcs, c ≠ .coldReset lcs)
    (hlow : c ≠ .resetnHeldLow) : s.live = true := by
  cases h
  case coldReset lcs => exact absurd rfl (hcold lcs)
  case resetnHeldLow => exact absurd rfl hlow
  case markFrame next | zeroFrame next | zeroLoopback next | cutoverLoopback next | holdFrame next
    | releaseFrame next | dismissFrame next | claimsFrame next | censusFrame next | cutoverFrame next =>
    exact next.live
  case configure req | restart req | takeNotices req | readMarks req | postMark req | zero req | readHolds req
    | hold req | release req | dismiss req | cutoverAt req | cutoverNow req | cancelCutover req | readRoll req
    | freeRoll req => exact req.live
  all_goals assumption

end Sys2Proof.Machine
end

section
/-! What a command keeps of the state's invariants: the places of the outbound queue (R158, R160). -/

namespace Sys2Proof.Machine

/-! ### The reserved places -/

theorem Lbi.reserved_eq (l : Lbi) : l.reserved =
    (!l.waitsFor 0).toNat + (!l.waitsFor 1).toNat + (!l.waitsFor 2).toNat + (!l.waitsFor 3).toNat := by
  simp only [Lbi.reserved, List.filter_cons, List.filter_nil]
  cases l.waitsFor 0 <;> cases l.waitsFor 1 <;> cases l.waitsFor 2 <;> cases l.waitsFor 3 <;> rfl

theorem Bool.toNat_not_le {a b : Bool} (h : b = true → a = true) : (!a).toNat ≤ (!b).toNat := by
  cases a <;> cases b <;> simp_all

/-- The more claims have a frame waiting, the fewer places are reserved. -/
theorem Lbi.reserved_le {l m : Lbi} (h : ∀ n, l.waitsFor n = true → m.waitsFor n = true) :
    m.reserved ≤ l.reserved := by
  rw [Lbi.reserved_eq, Lbi.reserved_eq]
  have h0 := Bool.toNat_not_le (h 0)
  have h1 := Bool.toNat_not_le (h 1)
  have h2 := Bool.toNat_not_le (h 2)
  have h3 := Bool.toNat_not_le (h 3)
  omega

/-- A claim that comes to have a frame waiting gives up its reserved place. -/
theorem Lbi.reserved_lt {l m : Lbi} {k : Nat} (hk : k < 4) (h : ∀ n, l.waitsFor n = true → m.waitsFor n = true)
    (hl : l.waitsFor k = false) (hm : m.waitsFor k = true) : m.reserved + 1 ≤ l.reserved := by
  rw [Lbi.reserved_eq, Lbi.reserved_eq]
  have h0 := Bool.toNat_not_le (h 0)
  have h1 := Bool.toNat_not_le (h 1)
  have h2 := Bool.toNat_not_le (h 2)
  have h3 := Bool.toNat_not_le (h 3)
  interval_cases k <;> simp only [hl, hm, Bool.not_true, Bool.not_false, Bool.toNat_true, Bool.toNat_false] at * <;>
    omega

theorem waitsFor_append (l : Lbi) (f : OutFrame) (n : Nat) :
    Lbi.waitsFor { l with urgent := l.urgent ++ [f] } n = (l.waitsFor n || f.claim? == some n) := by
  simp [Lbi.waitsFor]

theorem waitsFor_cons (l : Lbi) (f : OutFrame) (fs : List OutFrame) (n : Nat) (h : l.urgent = f :: fs) :
    l.waitsFor n = (f.claim? == some n || Lbi.waitsFor { l with urgent := fs } n) := by
  simp [Lbi.waitsFor, h]

/-- A frame that leaves the urgent class leaves at most one more reserved place behind it. -/
theorem Lbi.reserved_tail {l : Lbi} {f : OutFrame} {fs : List OutFrame} (h : l.urgent = f :: fs) :
    Lbi.reserved { l with urgent := fs } ≤ l.reserved + 1 := by
  have hw := fun n => waitsFor_cons l f fs n h
  rw [Lbi.reserved_eq, Lbi.reserved_eq, hw, hw, hw, hw]
  cases hc : f.claim? with
  | none => simp
  | some k =>
    have one : (k == 0).toNat + (k == 1).toNat + (k == 2).toNat + (k == 3).toNat ≤ 1 := by
      by_cases h0 : k = 0
      · subst h0; decide
      by_cases h1 : k = 1
      · subst h1; decide
      by_cases h2 : k = 2
      · subst h2; decide
      simp only [beq_eq_false_iff_ne.mpr h0, beq_eq_false_iff_ne.mpr h1, beq_eq_false_iff_ne.mpr h2]
      cases k == 3 <;> decide
    have each : ∀ a b : Bool, (!b).toNat ≤ (!(a || b)).toNat + a.toNat := by decide
    have e0 := each (k == 0) (Lbi.waitsFor { l with urgent := fs } 0)
    have e1 := each (k == 1) (Lbi.waitsFor { l with urgent := fs } 1)
    have e2 := each (k == 2) (Lbi.waitsFor { l with urgent := fs } 2)
    have e3 := each (k == 3) (Lbi.waitsFor { l with urgent := fs } 3)
    simp only [Option.some_beq_some] at *
    omega

/-! ### Offers to the queue -/

theorem Lbi.unreservedFree_iff {l : Lbi} : l.unreservedFree = true ↔ l.queued + l.reserved < 16 := by
  simp [Lbi.unreservedFree]

theorem Lbi.normalFree_iff {l : Lbi} : l.normalFree = true ↔ l.queued + l.reserved < 16 ∧ l.normal.length < 12 := by
  simp [Lbi.normalFree, Lbi.unreservedFree]

/-- Only the queue itself and the deferred requests count. -/
theorem OutboundOk.of_eq {l m : Lbi} (h : OutboundOk l) (hu : m.urgent = l.urgent) (hn : m.normal = l.normal)
    (hd : m.deferred = l.deferred) : OutboundOk m := by
  obtain ⟨places, normal, claims, census, deferred, waiting⟩ := h
  simp only [Lbi.queued, Lbi.reserved, Lbi.waitsFor] at *
  refine ⟨?_, hn ▸ normal, hn ▸ claims, hn ▸ census, hd ▸ deferred, hd ▸ hn ▸ waiting⟩
  simp only [Lbi.queued, Lbi.reserved, Lbi.waitsFor, hu, hn]
  exact places

theorem OutboundOk.queueUrgent {l : Lbi} (h : OutboundOk l) (free : l.unreservedFree = true) (f : OutFrame) :
    OutboundOk (l.queueUrgent f) := by
  unfold Lbi.queueUrgent
  split
  · refine ⟨?_, h.normal, h.claims, h.census, h.deferred, h.waiting⟩
    have hres : Lbi.reserved { l with urgent := l.urgent ++ [f] } ≤ l.reserved :=
      Lbi.reserved_le fun n hn => by rw [waitsFor_append, hn, Bool.true_or]
    have := Lbi.unreservedFree_iff.mp free
    simp only [Lbi.queued, List.length_append, List.length_singleton] at *
    omega
  · exact h

/-- A frame that no deferred request asks for, at a free normal place. -/
theorem OutboundOk.queueNormal {l : Lbi} (h : OutboundOk l) (free : l.normalFree = true) {f : OutFrame}
    (hclaims : f ≠ .claims) (hcensus : f ≠ .census) : OutboundOk (l.queueNormal f) := by
  unfold Lbi.queueNormal
  split
  · obtain ⟨hroom, hnormal⟩ := Lbi.normalFree_iff.mp free
    refine ⟨?_, ?_, ?_, ?_, h.deferred, ?_⟩
    · have hres : Lbi.reserved { l with normal := l.normal ++ [f] } = l.reserved := rfl
      simp only [Lbi.queued, List.length_append, List.length_singleton] at *
      omega
    · simp only [List.length_append, List.length_singleton]; omega
    · simpa [List.count_append, List.count_singleton, hclaims] using h.claims
    · simpa [List.count_append, List.count_singleton, hcensus] using h.census
    · intro r hr
      have hwait := h.waiting r hr
      rw [List.mem_append, List.mem_singleton]
      rintro (hm | rfl)
      · exact hwait hm
      · cases r
        · exact hcensus rfl
        · exact hclaims rfl
  · exact h

theorem queueClaim_waits {l : Lbi} {n : Nat} {f : OutFrame} (hf : f.claim? = some n) (k : Nat) :
    Lbi.waitsFor { l with urgent := l.urgent.map (fun g => if g.claim? == some n then f else g) } k =
      l.waitsFor k := by
  have key : ∀ g : OutFrame, ((if g.claim? == some n then f else g).claim? == some k) = (g.claim? == some k) := by
    intro g
    split
    · next hg => rw [hf, eq_of_beq hg]
    · rfl
  unfold Lbi.waitsFor
  simp only [List.any_map, Function.comp_def, key]

/-- A frame for one's own claim always has a place: that of a waiting one, or its reserved one (R104, R158). -/
theorem OutboundOk.queueClaim {l : Lbi} (h : OutboundOk l) {n : Nat} (hn : n < 4) {f : OutFrame}
    (hf : f.claim? = some n) : OutboundOk (l.queueClaim n f) := by
  unfold Lbi.queueClaim
  split
  · split
    · next hw =>
      refine ⟨?_, h.normal, h.claims, h.census, h.deferred, h.waiting⟩
      have hres := Lbi.reserved_le (l := l)
        (m := { l with urgent := l.urgent.map (fun g => if g.claim? == some n then f else g) })
        (fun k hk => (queueClaim_waits hf k).trans hk)
      have := h.places
      simp only [Lbi.queued, List.length_map] at *
      omega
    · next hw =>
      refine ⟨?_, h.normal, h.claims, h.census, h.deferred, h.waiting⟩
      have hres := Lbi.reserved_lt (l := l) (m := { l with urgent := l.urgent ++ [f] }) hn
        (fun k hk => by rw [waitsFor_append, hk, Bool.true_or]) (Bool.not_eq_true _ ▸ hw)
        (by rw [waitsFor_append, hf]; simp)
      have := h.places
      simp only [Lbi.queued, List.length_append, List.length_singleton] at *
      omega
  · exact h

theorem DeferredRequest.frame_inj {r q : DeferredRequest} (h : r.frame = q.frame) : r = q := by
  cases r <;> cases q <;> simp_all [DeferredRequest.frame]

/-- A requested frame that does not wait yet, at a free normal place. -/
theorem OutboundOk.queueRequested {l : Lbi} (h : OutboundOk l) (free : l.normalFree = true) {r : DeferredRequest}
    (hr : r ∉ l.deferred) (hn : r.frame ∉ l.normal) : OutboundOk (l.queueNormal r.frame) := by
  unfold Lbi.queueNormal
  split
  · obtain ⟨hroom, hnormal⟩ := Lbi.normalFree_iff.mp free
    refine ⟨?_, ?_, ?_, ?_, h.deferred, ?_⟩
    · have hres : Lbi.reserved { l with normal := l.normal ++ [r.frame] } = l.reserved := rfl
      simp only [Lbi.queued, List.length_append, List.length_singleton] at *
      omega
    · simp only [List.length_append, List.length_singleton]; omega
    · have := h.claims
      cases r <;> simp_all [DeferredRequest.frame, List.count_eq_zero_of_not_mem]
    · have := h.census
      cases r <;> simp_all [DeferredRequest.frame, List.count_eq_zero_of_not_mem]
    · intro q hq hmem
      rcases List.mem_append.mp hmem with hmem | hmem
      · exact h.waiting q hq hmem
      · exact hr (DeferredRequest.frame_inj (List.mem_singleton.mp hmem) ▸ hq)
  · exact h

theorem OutboundOk.request {l : Lbi} (h : OutboundOk l) (r : DeferredRequest) : OutboundOk (l.request r) := by
  unfold Lbi.request
  split
  · exact h
  · split
    · exact h
    · next hno =>
      simp only [Bool.or_eq_true, List.contains_iff_mem, not_or] at hno
      split
      · next free => exact h.queueRequested free hno.2 hno.1
      · refine ⟨h.places, h.normal, h.claims, h.census, ?_, ?_⟩
        · exact List.nodup_append.mpr ⟨h.deferred, by simp, fun a ha b hb => by
            rw [List.mem_singleton.mp hb]; exact fun e => hno.2 (e ▸ ha)⟩
        · intro q hq
          rcases List.mem_append.mp hq with hq | hq
          · exact h.waiting q hq
          · rw [List.mem_singleton.mp hq]; exact hno.1

/-- The oldest deferred request takes a place that has become free (R160). -/
theorem OutboundOk.settleDeferred {l : Lbi} (h : OutboundOk l) (before : Lbi) :
    OutboundOk (Lbi.settleDeferred before l) := by
  unfold Lbi.settleDeferred
  split
  · next hfree =>
    rw [Bool.and_eq_true] at hfree
    split
    · exact h
    · next r rest hd =>
      have hnodup := hd ▸ h.deferred
      rw [List.nodup_cons] at hnodup
      have hrest : OutboundOk { l with deferred := rest } :=
        ⟨h.places, h.normal, h.claims, h.census, hnodup.2,
          fun q hq => h.waiting q (hd ▸ List.mem_cons_of_mem _ hq)⟩
      have hq : OutboundOk (Lbi.queueNormal { l with deferred := rest } r.frame) :=
        hrest.queueRequested hfree.2 hnodup.1 (h.waiting r (hd ▸ List.mem_cons_self ..))
      refine hq.of_eq ?_ ?_ ?_ <;> (unfold Lbi.queueNormal Lbi.accepts; split <;> rfl)
  · exact h

/-! ### Frames that leave the queue, and those a ZERO shifts -/

theorem OutboundOk.urgentTail {l : Lbi} (h : OutboundOk l) {f : OutFrame} {fs : List OutFrame}
    (hu : l.urgent = f :: fs) : OutboundOk { l with urgent := fs } := by
  refine ⟨?_, h.normal, h.claims, h.census, h.deferred, h.waiting⟩
  have hres := Lbi.reserved_tail hu
  have := h.places
  simp only [Lbi.queued, hu, List.length_cons] at *
  omega

theorem OutboundOk.normalTail {l : Lbi} (h : OutboundOk l) {g : OutFrame} {gs : List OutFrame}
    (hn : l.normal = g :: gs) : OutboundOk { l with normal := gs } := by
  have hcount : ∀ f, gs.count f ≤ l.normal.count f := fun f => by rw [hn, List.count_cons]; omega
  refine ⟨?_, ?_, (hcount _).trans h.claims, (hcount _).trans h.census, h.deferred,
    fun r hr hm => h.waiting r hr (hn ▸ List.mem_cons_of_mem _ hm)⟩
  · have hres : Lbi.reserved { l with normal := gs } = l.reserved := rfl
    have := h.places
    simp only [Lbi.queued, hn, List.length_cons] at *
    omega
  · have := h.normal
    rw [hn, List.length_cons] at this
    simp only
    omega

/-- The frame an attempt takes leaves the queue good. -/
theorem OutboundOk.startable {l m : Lbi} {x : SendSlot} (h : OutboundOk l) (hs : l.startable = some (x, m)) :
    OutboundOk m := by
  unfold Lbi.startable at hs
  split at hs
  · split at hs <;> cases hs
    exact h
  · split at hs
    · next hu hn => split at hs <;> cases hs; exact h.urgentTail hu
    · next hu hn =>
      split at hs
      · cases hs; exact h.urgentTail hu
      · split at hs <;> cases hs
        exact h.normalTail hn
    · next hu hn => split at hs <;> cases hs; exact h.normalTail hn
    · cases hs

theorem OutFrame.shift_eq_frame {f : OutFrame} {δ : BitVec 32} {r : DeferredRequest} :
    f.shift δ = r.frame ↔ f = r.frame := by
  cases f <;> cases r <;> simp [OutFrame.shift, DeferredRequest.frame]

theorem count_shift (δ : BitVec 32) (r : DeferredRequest) (fs : List OutFrame) :
    (fs.map (fun f => f.shift δ)).count r.frame = fs.count r.frame := by
  induction fs with
  | nil => rfl
  | cons f fs ih =>
    rw [List.map_cons, List.count_cons, List.count_cons, ih]
    simp only [beq_iff_eq, OutFrame.shift_eq_frame]

theorem OutboundOk.shift {l : Lbi} (h : OutboundOk l) (δ : BitVec 32) : OutboundOk (l.shift δ) := by
  have hres : (l.shift δ).reserved = l.reserved := rfl
  refine ⟨?_, by simpa [Lbi.shift] using h.normal, ?_, ?_, h.deferred, ?_⟩
  · have hlen : (l.shift δ).queued = l.queued := by simp [Lbi.queued, Lbi.shift]
    rw [hres, hlen]
    exact h.places
  · exact (count_shift δ .claims l.normal).trans_le h.claims
  · exact (count_shift δ .census l.normal).trans_le h.census
  · intro r hr hm
    obtain ⟨f, hf, he⟩ := List.mem_map.mp hm
    exact h.waiting r hr (OutFrame.shift_eq_frame.mp he ▸ hf)

/-- An empty queue is good. -/
theorem OutboundOk.empty {l : Lbi} (hu : l.urgent = []) (hn : l.normal = []) (hd : l.deferred = []) :
    OutboundOk l := by
  refine ⟨?_, by simp [hn], by simp [hn], by simp [hn], by simp [hd], by simp [hd]⟩
  have : l.reserved ≤ 4 := by
    rw [Lbi.reserved_eq]
    have each : ∀ b : Bool, (!b).toNat ≤ 1 := by decide
    have := each (l.waitsFor 0); have := each (l.waitsFor 1); have := each (l.waitsFor 2)
    have := each (l.waitsFor 3)
    omega
  simp only [Lbi.queued, hu, hn, List.length_nil]
  omega

end Sys2Proof.Machine
end

section
/-! What a command keeps of the state's invariants: the hold table (R96, R114), the remainder (R5), and the relation
between a state and one that its events have led to. -/

namespace Sys2Proof.Machine

/-! ### The hold table -/

theorem TableOk.filter {table : List HoldRecord} (h : TableOk table) (p : HoldRecord → Bool) :
    TableOk (table.filter p) :=
  ⟨h.sorted.filter _, fun r hr => h.claims r (List.mem_of_mem_filter hr)⟩

theorem TableOk.putHold {table : List HoldRecord} (h : TableOk table) {r : HoldRecord} (hr : r.claim < 4) :
    TableOk (putHold r table) := by
  refine ⟨pairwise_insertByKey _ _ _ (h.sorted.filter _) fun q hq hkey => ?_, fun q hq => ?_⟩
  · obtain ⟨hmem, hne⟩ := List.mem_filter.mp hq
    have hclaim := h.claims q hmem
    have hsame : q.is r.origin r.claim = true := by
      rw [HoldRecord.is_iff]
      simp only [HoldRecord.key] at hkey
      omega
    rw [hsame] at hne
    cases hne
  · rcases mem_putHold.mp hq with rfl | ⟨hmem, -⟩
    · exact hr
    · exact h.claims q hmem

/-- Records that keep their identities keep the table. -/
theorem TableOk.map {table : List HoldRecord} (h : TableOk table) {f : HoldRecord → HoldRecord}
    (ho : ∀ r, (f r).origin = r.origin) (hc : ∀ r, (f r).claim = r.claim) : TableOk (table.map f) := by
  refine ⟨List.pairwise_map.mpr (h.sorted.imp fun {a b} hab => ?_), fun r hr => ?_⟩
  · simpa only [HoldRecord.key, ho, hc] using hab
  · obtain ⟨q, hq, rfl⟩ := List.mem_map.mp hr
    rw [hc]
    exact h.claims q hq

/-- Four claims for each of twenty-four stations (R96). -/
theorem TableOk.length_le {table : List HoldRecord} (h : TableOk table)
    (ho : ∀ r ∈ table, 1 ≤ r.origin ∧ r.origin ≤ 24) : table.length ≤ 96 := by
  have hnodup : (table.map HoldRecord.key).Nodup :=
    (List.pairwise_map.mpr h.sorted).imp fun {a b} hab => Nat.ne_of_lt hab
  have hsub : (table.map HoldRecord.key).toFinset ⊆ Finset.Ico 4 100 := by
    intro k hk
    obtain ⟨r, hr, rfl⟩ := List.mem_map.mp (List.mem_toFinset.mp hk)
    have := ho r hr
    have := h.claims r hr
    simp only [Finset.mem_Ico, HoldRecord.key]
    omega
  have hcard := Finset.card_le_card hsub
  rwa [List.toFinset_card_of_nodup hnodup, List.length_map, Nat.card_Ico] at hcard

theorem HoldsOk.of_eq {s t : State} (h : HoldsOk s) (ht : t.htu.table = s.htu.table)
    (hcfg : t.stc.config = s.stc.config) (hconf : t.configured = s.configured) : HoldsOk t := by
  have hs : t.cfg = s.cfg := by simp only [State.cfg, hcfg]
  exact ⟨ht ▸ h.table, ht ▸ h.room, ht ▸ h.origins, hs ▸ hconf ▸ h.station, ht ▸ hconf ▸ h.unconfigured,
    ht ▸ hs ▸ h.own⟩

/-- A table of records of stations, this station's own LIVE, in a configured station. -/
theorem HoldsOk.withTable {s : State} (h : HoldsOk s) {x : Htu} (hx : TableOk x.table)
    (ho : ∀ r ∈ x.table, 1 ≤ r.origin ∧ r.origin ≤ 24)
    (hown : ∀ r ∈ x.table, r.origin = s.cfg.station → r.stale = false)
    (hun : s.configured = false → x.table = []) : HoldsOk (s.withHtu x) :=
  ⟨hx, hx.length_le ho, ho, h.station, hun, hown⟩

theorem HoldsOk.filterTable {s : State} (h : HoldsOk s) {x : Htu} (p : HoldRecord → Bool)
    (hx : x.table = s.htu.table.filter p) : HoldsOk (s.withHtu x) := by
  refine h.withTable (hx ▸ h.table.filter p) ?_ ?_ ?_ <;> rw [hx]
  · exact fun r hr => h.origins r (List.mem_of_mem_filter hr)
  · exact fun r hr => h.own r (List.mem_of_mem_filter hr)
  · exact fun hc => by rw [h.unconfigured hc]; rfl

/-- A LIVE record of a station put into the table of a configured one. -/
theorem HoldsOk.putTable {s : State} (h : HoldsOk s) (hc : s.configured = true) {x : Htu} {r : HoldRecord}
    (hx : x.table = putHold r s.htu.table) (ho : 1 ≤ r.origin ∧ r.origin ≤ 24) (hn : r.claim < 4)
    (hr : r.stale = false) : HoldsOk (s.withHtu x) := by
  refine h.withTable (hx ▸ h.table.putHold hn) ?_ ?_ (fun hu => by rw [hc] at hu; cases hu) <;> rw [hx] <;>
    intro q hq <;> rcases mem_putHold.mp hq with rfl | ⟨hmem, -⟩
  · exact ho
  · exact h.origins q hmem
  · exact fun _ => hr
  · exact h.own q hmem

/-! ### The remainder and the travel -/

theorem LcuOk.of_eq {s t : State} (h : LcuOk s) (hr : t.lcu.remainder = s.lcu.remainder)
    (hcfg : t.stc.config = s.stc.config) (hconf : t.configured = s.configured) : LcuOk t := by
  have hs : t.cfg = s.cfg := by simp only [State.cfg, hcfg]
  exact ⟨hs ▸ h.ratioD, hr ▸ hs ▸ h.remainder, hr ▸ hconf ▸ h.unconfigured⟩

/-- The remainder after a reverse count is below D (R5). -/
theorem reverseStep_remainder {r n d : Nat} (hd : 1 ≤ d) (hr : r < d) :
    n ≤ r + reverseStep r n d * d ∧ r + reverseStep r n d * d - n < d := by
  unfold reverseStep
  split
  · omega
  · have hlow := Nat.lt_mul_of_div_lt (Nat.lt_succ_self ((n - r + d - 1) / d)) hd
    have hhigh := Nat.div_mul_le_self (n - r + d - 1) d
    rw [Nat.succ_mul] at hlow
    omega

/-- The remainder the travel leaves is below D (R13). -/
theorem State.travel_remainder (s : State) (captured : BitVec 32) (hd : 1 ≤ s.cfg.ratioD) :
    (s.travel captured).2 < s.cfg.ratioD := by
  have hpos : (0 : Int) < s.cfg.ratioD := by omega
  have hlt := Int.fmod_lt_of_pos ((s.lcu.raw - captured).toInt * s.cfg.ratioN) hpos
  rw [Int.fmod_def] at hlt
  simp only [State.travel]
  omega

/-! ### From a state to one its events have led to -/

theorem CountersRise.refl (c : Counters) : CountersRise c c := by
  constructor <;> exact Nat.le_refl _

theorem CountersRise.trans {a b c : Counters} (h : CountersRise a b) (k : CountersRise b c) : CountersRise a c :=
  ⟨h.framesAborted.trans k.framesAborted, h.framesDropped.trans k.framesDropped,
    h.receiveErrors.trans k.receiveErrors, h.inboundOverruns.trans k.inboundOverruns,
    h.marksSpilled.trans k.marksSpilled, h.gaps.trans k.gaps, h.setsLost.trans k.setsLost,
    h.encoderErrors.trans k.encoderErrors⟩

theorem Counters.raise_rise (c : Counters) (name : CounterName) : CountersRise c (c.raise name) := by
  cases name <;> constructor <;> simp only [Counters.raise, Nat.le_refl, le_holdInc]

theorem CountersOk.raise {c : Counters} (h : CountersOk c) (name : CounterName) : CountersOk (c.raise name) := by
  obtain ⟨h1, h2, h3, h4, h5, h6, h7, h8⟩ := h
  cases name <;> constructor <;> simp only [Counters.raise, holdInc_le, h1, h2, h3, h4, h5, h6, h7, h8]

theorem LptOk.place {l : Lpt} (h : LptOk l) (n : Notice) : LptOk (l.place n) := by
  unfold Lpt.place
  split
  · exact ⟨by simp only [List.length_append, List.length_singleton]; omega, h.lost⟩
  · exact ⟨h.notices, holdInc_le h.lost⟩

/-- What the events of a part keep from `s` to `t`, whatever they are, but for a cold reset and the configuration:
who the station is, its counters, and each of the invariants. -/
structure Keeps (s t : State) : Prop where
  pending : t.pending = s.pending
  live : t.live = true → s.live = true
  configured : t.configured = s.configured
  config : t.stc.config = s.stc.config
  locked : t.stc.locked = s.stc.locked
  waits : s.configured = false → t.aou = s.aou ∧ t.stc = { s.stc with
    now := t.stc.now, fault := t.stc.fault, counters := t.stc.counters }
  rise : CountersRise s.stc.counters t.stc.counters
  counters : CountersOk s.stc.counters → CountersOk t.stc.counters
  levels : LevelsFollowPins s → LevelsFollowPins t
  lcu : LcuOk s → LcuOk t
  reverseRun : s.lcu.reverseRun ≤ 4294967295 → t.lcu.reverseRun ≤ 4294967295
  mke : MkeOk s.mke → MkeOk t.mke
  aou : AouPart s.aou t.aou
  scu : ScuOk s.scu → ScuOk t.scu
  tail : s.htu.tail ≤ 3 → t.htu.tail ≤ 3
  rmu : RmuOk s.rmu → RmuOk t.rmu
  lbi : LbiOk s.lbi → LbiOk t.lbi
  lpt : LptOk s.lpt → LptOk t.lpt
  holds : HoldsOk s → HoldsOk t
  outbound : OutboundOk s.lbi → OutboundOk t.lbi

namespace Keeps

theorem refl (s : State) : Keeps s s where
  pending := rfl
  live := id
  configured := rfl
  config := rfl
  locked := rfl
  waits _ := ⟨rfl, rfl⟩
  rise := .refl _
  counters := id
  levels := id
  lcu := id
  reverseRun := id
  mke := id
  aou := ⟨id, fun _ => rfl⟩
  scu := id
  tail := id
  rmu := id
  lbi := id
  lpt := id
  holds := id
  outbound := id

variable {s t : State} (h : Keeps s t)

include h

theorem cfg : t.cfg = s.cfg := by
  simp only [State.cfg, h.config]

theorem trans {u : State} (k : Keeps t u) : Keeps s u where
  pending := k.pending.trans h.pending
  live := h.live ∘ k.live
  configured := k.configured.trans h.configured
  config := k.config.trans h.config
  locked := k.locked.trans h.locked
  waits hs := by
    obtain ⟨ha, hstc⟩ := h.waits hs
    obtain ⟨ka, kstc⟩ := k.waits (h.configured.trans hs)
    exact ⟨ka.trans ha, by rw [kstc, hstc]⟩
  rise := h.rise.trans k.rise
  counters := k.counters ∘ h.counters
  levels := k.levels ∘ h.levels
  lcu := k.lcu ∘ h.lcu
  reverseRun := k.reverseRun ∘ h.reverseRun
  mke := k.mke ∘ h.mke
  aou := h.aou.trans k.aou
  scu := k.scu ∘ h.scu
  tail := k.tail ∘ h.tail
  rmu := k.rmu ∘ h.rmu
  lbi := k.lbi ∘ h.lbi
  lpt := k.lpt ∘ h.lpt
  holds := k.holds ∘ h.holds
  outbound := k.outbound ∘ h.outbound

/-! Each block replaced by one as good. -/

/-- The pins change, but not RESETN. What the part decodes goes with the encoder pins. -/
theorem withPins {x : Pins} (hr : x.resetn = .high → t.pins.resetn = .high)
    (hl : LevelsFollowPins t → LevelsFollowPins (t.withPins x)) : Keeps s (t.withPins x) where
  __ := h
  live hlive := h.live (State.live_iff.mpr (hr (State.live_iff.mp hlive)))
  levels := hl ∘ h.levels
  lcu x := (h.lcu x).of_eq rfl rfl rfl
  holds x := (h.holds x).of_eq rfl rfl rfl

theorem withLcu {x : Lcu} (hl : LevelsFollowPins t → LevelsFollowPins (t.withLcu x))
    (hok : LcuOk t → LcuOk (t.withLcu x))
    (hrun : t.lcu.reverseRun ≤ 4294967295 → x.reverseRun ≤ 4294967295) : Keeps s (t.withLcu x) where
  __ := h
  levels := hl ∘ h.levels
  lcu := hok ∘ h.lcu
  reverseRun := hrun ∘ h.reverseRun
  holds x := (h.holds x).of_eq rfl rfl rfl

theorem withMke {x : Mke} (hx : MkeOk t.mke → MkeOk x) : Keeps s (t.withMke x) where
  __ := h
  mke := hx ∘ h.mke
  lcu x := (h.lcu x).of_eq rfl rfl rfl
  holds x := (h.holds x).of_eq rfl rfl rfl

theorem withAou {x : Aou} (hc : s.configured = true) (hx : AouPart t.aou x) : Keeps s (t.withAou x) where
  __ := h
  waits hs := by rw [hc] at hs; cases hs
  aou := h.aou.trans hx
  lcu x := (h.lcu x).of_eq rfl rfl rfl
  holds x := (h.holds x).of_eq rfl rfl rfl

theorem withScu {x : Scu} (hx : ScuOk t.scu → ScuOk x) : Keeps s (t.withScu x) where
  __ := h
  scu := hx ∘ h.scu
  lcu x := (h.lcu x).of_eq rfl rfl rfl
  holds x := (h.holds x).of_eq rfl rfl rfl

theorem withHtu {x : Htu} (hx : HoldsOk t → HoldsOk (t.withHtu x)) (ht : t.htu.tail ≤ 3 → x.tail ≤ 3) :
    Keeps s (t.withHtu x) where
  __ := h
  tail := ht ∘ h.tail
  lcu x := (h.lcu x).of_eq rfl rfl rfl
  holds := hx ∘ h.holds

theorem withRmu {x : Rmu} (hx : RmuOk s.rmu → RmuOk x) : Keeps s (t.withRmu x) where
  __ := h
  rmu := hx
  lcu x := (h.lcu x).of_eq rfl rfl rfl
  holds x := (h.holds x).of_eq rfl rfl rfl

theorem withLbi {x : Lbi} (hx : LbiOk t.lbi → LbiOk x) (ho : OutboundOk t.lbi → OutboundOk x) :
    Keeps s (t.withLbi x) where
  __ := h
  lbi := hx ∘ h.lbi
  outbound := ho ∘ h.outbound
  lcu x := (h.lcu x).of_eq rfl rfl rfl
  holds x := (h.holds x).of_eq rfl rfl rfl

/-- The station goes on with other timers, faults or counters, or in another configured state. -/
theorem withStc {x : Stc} (hconf : (t.withStc x).configured = t.configured) (hcfg : x.config = t.stc.config)
    (hlock : x.locked = t.stc.locked)
    (hwait : t.configured = false → x = { t.stc with now := x.now, fault := x.fault, counters := x.counters })
    (hrise : CountersRise t.stc.counters x.counters)
    (hok : CountersOk t.stc.counters → CountersOk x.counters) : Keeps s (t.withStc x) where
  __ := h
  configured := hconf.trans h.configured
  config := hcfg.trans h.config
  locked := hlock.trans h.locked
  waits hs := by
    obtain ⟨ha, hstc⟩ := h.waits hs
    have hx := hwait (h.configured.trans hs)
    exact ⟨ha, by rw [State.stc_withStc, hx, hstc]⟩
  rise := h.rise.trans hrise
  counters := hok ∘ h.counters
  levels hs hlive hc := h.levels hs hlive (hconf ▸ hc)
  lcu x := (h.lcu x).of_eq rfl hcfg hconf
  holds x := (h.holds x).of_eq rfl hcfg hconf

theorem withLpt {x : Lpt} (hx : LptOk t.lpt → LptOk x) : Keeps s (t.withLpt x) where
  __ := h
  lpt := hx ∘ h.lpt
  lcu x := (h.lcu x).of_eq rfl rfl rfl
  holds x := (h.holds x).of_eq rfl rfl rfl

/-! The small operations. -/

theorem notice (k : NoticeKind) (o : Option Nat) (n : Option MarkNo) (v : Option (BitVec 32)) :
    Keeps s (t.notice k o n v) := h.withLpt fun ok => ok.place _

theorem count (name : CounterName) : Keeps s (t.count name) :=
  h.withStc rfl rfl rfl (fun _ => rfl) (Counters.raise_rise _ _) (fun ok => ok.raise _)

theorem fault (k : FaultKind) (o : Nat) : Keeps s (t.recordFault k o) :=
  h.withStc rfl rfl rfl (fun _ => rfl) (.refl _) id

theorem answerCode (code : Byte) (status : Status) (payload : List Byte) :
    Keeps s (t.answerCode code status payload) := h.withLpt fun ok => ⟨ok.notices, ok.lost⟩

theorem answer (r : Request) (status : Status) (payload : List Byte) : Keeps s (t.answer r status payload) :=
  h.answerCode ..

/-- The Length Counting Unit changes, but neither the levels nor the remainder. -/
theorem withLcu_same {x : Lcu} (hl : x.levels = t.lcu.levels) (hr : x.remainder = t.lcu.remainder)
    (hrun : x.reverseRun = t.lcu.reverseRun) : Keeps s (t.withLcu x) :=
  h.withLcu (fun hf h1 h2 => hl.trans (hf h1 h2)) (fun ok => ok.of_eq hr rfl rfl) (fun ok => hrun ▸ ok)

/-- The Line Bus Interface changes, but neither its queue nor its counts. -/
theorem withLbi_same {x : Lbi} (hi : x.inbound.length ≤ t.lbi.inbound.length) (hrun : x.recessiveRun ≤ 255)
    (hs : x.slot = t.lbi.slot ∨ x.slot = none) (hu : x.urgent = t.lbi.urgent) (hn : x.normal = t.lbi.normal)
    (hd : x.deferred = t.lbi.deferred) : Keeps s (t.withLbi x) := by
  refine h.withLbi (fun ok => ⟨hi.trans ok.inbound, hrun, fun y hy => ?_⟩) (fun ok => ok.of_eq hu hn hd)
  rcases hs with hs | hs
  · exact ok.failed y (hs ▸ hy)
  · rw [hs] at hy; cases hy

theorem notUnconfigured (hc : s.configured = true) : t.configured = true := h.configured.trans hc

end Keeps

end Sys2Proof.Machine
end

section
/-! What a command keeps of the state's invariants: the operations shared by several commands, each kept once. -/

namespace Sys2Proof.Machine

/-! ### Claims and requests -/

theorem LbiOk.of_eq {l m : Lbi} (h : LbiOk l) (hi : m.inbound = l.inbound) (hr : m.recessiveRun = l.recessiveRun)
    (hs : m.slot = l.slot) : LbiOk m := ⟨hi ▸ h.inbound, hr ▸ h.run, hs ▸ h.failed⟩

theorem LbiOk.of_same {l m : Lbi} (h : LbiOk l) (e : m = { l with urgent := m.urgent, normal := m.normal }) :
    LbiOk m := h.of_eq (by rw [e]) (by rw [e]) (by rw [e])

theorem Lbi.same_queueUrgent (l : Lbi) (f : OutFrame) :
    l.queueUrgent f = { l with urgent := (l.queueUrgent f).urgent, normal := (l.queueUrgent f).normal } := by
  unfold Lbi.queueUrgent; split <;> rfl

theorem Lbi.same_request (l : Lbi) (r : DeferredRequest) :
    l.request r = { l with normal := (l.request r).normal, deferred := (l.request r).deferred } := by
  unfold Lbi.request Lbi.queueNormal
  split_ifs <;> rfl

namespace Keeps

variable {s t : State}

theorem queueUrgent (h : Keeps s t) (free : t.lbi.unreservedFree = true) (f : OutFrame) :
    Keeps s (t.withLbi (t.lbi.queueUrgent f)) :=
  h.withLbi (fun ok => ok.of_same (Lbi.same_queueUrgent ..)) (fun ok => ok.queueUrgent free f)

theorem queueNormal (h : Keeps s t) (free : t.lbi.normalFree = true) {f : OutFrame} (hclaims : f ≠ .claims)
    (hcensus : f ≠ .census) : Keeps s (t.withLbi (t.lbi.queueNormal f)) :=
  h.withLbi (fun ok => ok.of_same (Lbi.same_queueNormal ..)) (fun ok => ok.queueNormal free hclaims hcensus)

theorem queueClaim (h : Keeps s t) {n : Nat} (hn : n < 4) {f : OutFrame} (hf : f.claim? = some n) :
    Keeps s (t.withLbi (t.lbi.queueClaim n f)) :=
  h.withLbi (fun ok => ok.of_same (Lbi.same_queueClaim ..)) (fun ok => ok.queueClaim hn hf)

theorem request (h : Keeps s t) (r : DeferredRequest) : Keeps s (t.request r) :=
  h.withLbi (fun ok => ok.of_eq (by rw [Lbi.same_request]) (by rw [Lbi.same_request]) (by rw [Lbi.same_request]))
    (fun ok => ok.request r)

theorem makeClaim (h : Keeps s t) (hc : s.configured = true) {n : Nat} (hn : n < 4) (k : Reason)
    (m : Option MarkRef) : Keeps s (t.makeClaim n k m) := by
  have ht := h.notUnconfigured hc
  have h1 := h.withHtu (x := { t.htu with
      table := putHold ⟨t.cfg.station, n, k, m, false⟩ t.htu.table
      refresh := if t.htu.refresh.isNone && t.onLine then some (t.ahead t.cfg.refreshPeriod) else t.htu.refresh })
    (fun ok => ok.putTable ht rfl (ok.station ht) hn rfl) id
  exact h1.queueClaim (f := .hold n k m) hn rfl

theorem releaseClaim (h : Keeps s t) {n : Nat} (hn : n < 4) : Keeps s (t.releaseClaim n) := by
  unfold State.releaseClaim
  split
  · refine (h.withHtu (fun ok => ok.filterTable _ rfl) fun ok => ?_).queueClaim hn rfl
    simp only
    split
    · exact ok
    · exact Nat.le_refl 3
  · exact h

theorem announce (h : Keeps s t) (n : Nat) (a : Announcement) : Keeps s (t.announce n a) := by
  refine h.withRmu fun g => RmuOk.setClosed (h.rmu g) ?_ ?_ _
  · simpa using (h.rmu g).room
  · intro c hc
    obtain ⟨d, hd, rfl⟩ := List.mem_map.mp hc
    split
    · exact ((h.rmu g).closed d hd).announce a
    · exact (h.rmu g).closed d hd

theorem reportAbandoned (h : Keeps s t) (f : OutFrame) : Keeps s (t.reportAbandoned f) := by
  cases f with
  | cutover k n => exact h.announce n _
  | zero | hold | release | dismiss | mark | claims | census => exact h

end Keeps

/-- Marks, actions, pulses, windows and closes keep the invariants of a configured part. -/
theorem keeps_parts {s : State} (hc : s.configured = true) : KeptByParts (RmuOk s.rmu) (Keeps s) where
  place _ _ h := h.withLpt fun ok => ok.place _
  count _ k h := h.count k
  fault _ k o h := h.fault k o
  mke _ _ hm h := h.withMke hm.ok
  aou _ _ ha h := h.withAou hc ha
  scu _ _ hx h := h.withScu hx.ok
  rmuOk g _ h := h.rmu g
  rmu _ _ _ hr h := h.withRmu hr
  claim _ _ k m hn h := h.makeClaim hc hn k m
  cutover _ _ _ free h := h.queueNormal free (by simp) (by simp)

theorem keeps_marks {s : State} (hc : s.configured = true) : KeptByMarks (RmuOk s.rmu) (Keeps s) :=
  (keeps_parts hc).toKeptByMarks

/-! ### Roll sets -/

theorem SetOk.flags {r q : RollSet} (h : SetOk r) (hn : q.number = r.number) (he : q.entries = r.entries)
    (hd : q.dropped = r.dropped) : SetOk q := ⟨hn ▸ h.number, he ▸ h.entries, hd ▸ h.dropped⟩

/-- Roll sets stay good where each set being wound changes but its flags, its start and its cut. -/
theorem RmuOk.mapSets {r : Rmu} (h : RmuOk r) {f g : RollSet → RollSet} (hf : ∀ c, SetOk c → SetOk (f c))
    (hg : ∀ c, SetOk c → SetOk (g c)) : RmuOk { r with current := r.current.map f, next := r.next.map g } := by
  refine ⟨h.nextSet, h.room, h.closed, fun c hc => ?_, fun c hc => ?_⟩
  · obtain ⟨d, hd, rfl⟩ := Option.map_eq_some_iff.mp hc
    exact hf d (h.current d hd)
  · obtain ⟨d, hd, rfl⟩ := Option.map_eq_some_iff.mp hc
    exact hg d (h.next d hd)

theorem RmuOk.shift {r : Rmu} (h : RmuOk r) (δ : BitVec 32) : RmuOk (r.shift δ) :=
  h.mapSets (fun _ hc => hc.flags rfl rfl rfl) (fun _ hc => hc.flags rfl rfl rfl)

theorem RmuOk.markUncertain {r : Rmu} (h : RmuOk r) : RmuOk r.markUncertain :=
  h.mapSets (fun _ hc => hc.flags rfl rfl rfl) (fun _ hc => hc.flags rfl rfl rfl)

theorem State.newSet_ok {s : State} (h : RmuOk s.rmu) (start : Coord) : SetOk (s.newSet start) :=
  ⟨h.nextSet, Nat.zero_le _, Nat.zero_le _⟩

theorem setNumber_next {n : Nat} (h : SetNumber n) : SetNumber (if n < 65535 then n + 1 else 1) := by
  unfold SetNumber at *
  split <;> omega

theorem RmuOk.useNumber {r : Rmu} (h : RmuOk r) :
    RmuOk { r with nextSet := if r.nextSet < 65535 then r.nextSet + 1 else 1 } :=
  ⟨setNumber_next h.nextSet, h.room, h.closed, h.current, h.next⟩

theorem RmuOk.endRead {r : Rmu} (h : RmuOk r) (p : Option (Nat × Time)) : RmuOk { r with pendingRead := p } :=
  ⟨h.nextSet, h.room, h.closed, h.current, h.next⟩

namespace Keeps

variable {s t : State}

theorem useSetNumber (h : Keeps s t) : Keeps s t.useSetNumber := h.withRmu fun g => (h.rmu g).useNumber

theorem planCut (h : Keeps s t) {cur : RollSet} (hcur : RmuOk s.rmu → SetOk cur) (k : Coord) :
    Keeps s (t.planCut cur k) :=
  h.useSetNumber.withRmu fun g =>
    have ok : RmuOk t.useSetNumber.rmu := (h.rmu g).useNumber
    (ok.setCurrent (c := { cur with cut := some k }) ((hcur g).flags rfl rfl rfl)).setNext
      (State.newSet_ok (h.rmu g) k)

theorem closeWithNew (h : Keeps s t) (hc : s.configured = true) {cur : RollSet} (hcur : RmuOk s.rmu → SetOk cur)
    (k : Coord) (own : Bool) : Keeps s (t.closeWithNew cur k own) :=
  State.closeSet_kept (keeps_parts hc) h.useSetNumber k own hcur (fun g => State.newSet_ok (h.rmu g) k)

theorem sensorCut (h : Keeps s t) (hc : s.configured = true) (k : Coord) : Keeps s (t.sensorCut k) := by
  unfold State.sensorCut
  split
  · exact h
  · next cur hcur =>
    split
    · split
      · next nxt _ hnxt =>
        exact State.closeMoved_kept (keeps_parts hc) h k true
          (fun g => ((h.rmu g).current _ hcur).flags rfl rfl rfl) (fun g => (h.rmu g).next _ hnxt)
      · exact h.closeWithNew hc (fun g => (h.rmu g).current _ hcur) k true
    · exact h.notice ..

theorem followCut (h : Keeps s t) (hc : s.configured = true) (f : Coord) (source : Nat × Nat) :
    Keeps s (t.followCut f source) := by
  unfold State.followCut
  split
  · exact h
  · next cur hcur =>
    have hset : RmuOk s.rmu → SetOk { cur with followed := some source } :=
      fun g => ((h.rmu g).current _ hcur).flags rfl rfl rfl
    split
    · split
      · next nxt _ hnxt =>
        split
        · exact State.closeMoved_kept (keeps_parts hc) h f false hset (fun g => (h.rmu g).next _ hnxt)
        · have hm := State.moveCut_kept (keeps_marks hc) h { cur with followed := some source } nxt f
          exact hm.withRmu fun g => RmuOk.setNext (RmuOk.setCurrent (hm.rmu g)
            (State.moveCut_current (hset g) nxt f)) (State.moveCut_next _ ((h.rmu g).next _ hnxt) f)
      · split
        · exact h.closeWithNew hc hset f false
        · exact h.planCut hset f
    · exact h.notice ..

theorem mergeBack (h : Keeps s t) (hc : s.configured = true) : Keeps s t.mergeBack := by
  unfold State.mergeBack
  split
  · next cur nxt hcur hnxt =>
    have he := State.enterAll_kept (keeps_marks hc) (nxt.entries.map (fun e => e.moved nxt.start cur.start)) h cur
    refine he.withRmu fun g => ?_
    have hset := State.enterAll_set (s := t) (nxt.entries.map (fun e => e.moved nxt.start cur.start))
      ((h.rmu g).current _ hcur)
    refine ⟨((h.rmu g).next _ hnxt).number, (he.rmu g).room, (he.rmu g).closed, fun c e => ?_, fun c e => ?_⟩
    · cases e; exact ⟨hset.number, hset.entries, holdAdd_le hset.dropped⟩
    · cases e
  · exact h

end Keeps


/-! ### Changes of the station state -/

theorem MkeOk.empty {m : Mke} (hq : m.queue = []) (hs : m.spill = none) : MkeOk m :=
  ⟨by simp [hq], by simp [hq], by simp [hq], by simp [hs]⟩

namespace Keeps

variable {s t : State}

/-- A configured station enters another configured state. -/
theorem enters (h : Keeps s t) (hc : s.configured = true) {x : Stc} (hst : x.station ≠ .unconfigured)
    (hcfg : x.config = t.stc.config) (hlock : x.locked = t.stc.locked) (hcount : x.counters = t.stc.counters) :
    Keeps s (t.withStc x) := by
  have ht := h.notUnconfigured hc
  refine h.withStc ?_ hcfg hlock (fun hu => by rw [ht] at hu; cases hu) (hcount ▸ .refl _) (fun ok => hcount ▸ ok)
  rw [ht]
  simpa [State.configured] using hst

theorem setStation (h : Keeps s t) (hc : s.configured = true) {st : StationState} (hst : st ≠ .unconfigured) :
    Keeps s (t.setStation st) := h.enters hc hst rfl rfl rfl

theorem takeDesyncClaim (h : Keeps s t) (hc : s.configured = true) : Keeps s t.takeDesyncClaim := by
  unfold State.takeDesyncClaim
  split
  · exact h
  · exact h.makeClaim hc (by decide) ..

theorem releaseDesyncClaim (h : Keeps s t) : Keeps s t.releaseDesyncClaim := by
  unfold State.releaseDesyncClaim
  split
  · exact h.releaseClaim (by decide)
  · exact h

theorem releaseSightClaim (h : Keeps s t) : Keeps s t.releaseSightClaim := by
  unfold State.releaseSightClaim
  split
  · exact h.releaseClaim (by decide)
  · exact h

theorem clearSync (h : Keeps s t) : Keeps s t.clearSync := h.withLcu_same rfl rfl rfl

theorem emptyQueue (h : Keeps s t) : Keeps s t.emptyQueue := (h.withMke fun _ => MkeOk.empty rfl rfl).notice ..

theorem desyncBlocks (h : Keeps s t) (hc : s.configured = true) : Keeps s t.desyncBlocks := by
  have h1 := h.setStation hc (st := .desync) (by decide)
  have h2 := h1.withScu (x := (t.setStation .desync).scu.desync) fun _ => Nat.zero_le _
  have h3 := h2.withAou hc (AouPart.idled _)
  have h4 := h3.withRmu fun g => RmuOk.markUncertain (h3.rmu g)
  exact (h4.takeDesyncClaim hc).request .census

theorem inOrder {f g : State → State} (o : NoticeOrder) (hf : ∀ u, Keeps s u → Keeps s (f u))
    (hg : ∀ u, Keeps s u → Keeps s (g u)) (h : Keeps s t) : Keeps s (inOrder o f g t) := by
  cases o with
  | listed => exact hg _ (hf _ h)
  | reversed => exact hf _ (hg _ h)

theorem enterDesync (h : Keeps s t) (hc : s.configured = true) (o : NoticeOrder) {cause : State → State}
    (hcause : ∀ u, Keeps s u → Keeps s (cause u)) : Keeps s (t.enterDesync o cause) :=
  (inOrder o hcause (fun _ hu => hu.emptyQueue) h).desyncBlocks hc

theorem epochAhead (h : Keeps s t) (o : Nat) (n : Option MarkNo) (d : Nat) : Keeps s (t.epochAhead o n d) :=
  (h.notice ..).fault ..

theorem becomeActive (h : Keeps s t) (hc : s.configured = true) : Keeps s t.becomeActive :=
  (h.setStation hc (by decide)).releaseDesyncClaim

theorem enterJoining (h : Keeps s t) (hc : s.configured = true) : Keeps s t.enterJoining := by
  have h1 : Keeps s (t.withStc { t.stc with
      station := .joining, join := some (t.ahead t.cfg.joinInterval) }) := h.enters hc (by simp) rfl rfl rfl
  have h2 := h1.withLcu_same (x := { t.lcu with joinSync := .adopting }) rfl rfl rfl
  exact ((h2.request .census).takeDesyncClaim hc).request .claims

theorem discardOutbound (h : Keeps s t) : Keeps s t.discardOutbound := by
  have h1 : Keeps s (t.lbi.outbound.foldl (fun u f => u.reportAbandoned f) t) :=
    foldl_kept (Keeps s) (fun _ f hu => hu.reportAbandoned f) _ h
  generalize hu : t.lbi.outbound.foldl (fun u f => u.reportAbandoned f) t = u at h1
  have h2 := h1.withLbi (x := { u.lbi with
      urgent := [], normal := [], slot := none, attempt := none, deferred := [], quiet := none
      yieldPending := false, mode := .mute })
    (fun ok => ⟨ok.inbound, ok.run, fun _ e => nomatch e⟩) (fun _ => OutboundOk.empty rfl rfl rfl)
  unfold State.discardOutbound
  simp only [hu]
  exact h2.notice ..

theorem duplicateFound (h : Keeps s t) (k : FrameKind) : Keeps s (t.duplicateFound k) := (h.fault ..).notice ..

theorem enterSilent (h : Keeps s t) (hc : s.configured = true) (o : NoticeOrder) (k : FrameKind) :
    Keeps s (t.enterSilent o k) := by
  have h1 : Keeps s (t.withStc { t.stc with station := .silent, join := none }) :=
    h.enters hc (by simp) rfl rfl rfl
  have h2 := h1.withHtu (x := { t.htu with refresh := none, tail := 0 }) (fun ok => ok.of_eq rfl rfl rfl)
    (fun _ => Nat.zero_le _)
  exact inOrder o (fun _ hu => hu.duplicateFound k) (fun _ hu => hu.discardOutbound) h2

end Keeps

/-! ### The ZERO shift -/

theorem MkeOk.shift {m : Mke} (h : MkeOk m) (δ : BitVec 32) : MkeOk (m.shift δ) := by
  have hq := h.mapQueue (fun r => r.shift δ) (fun _ => ⟨rfl, rfl, rfl⟩)
  refine ⟨hq.room, hq.distinct, hq.names, fun sp hsp => ?_⟩
  obtain ⟨sp0, h0, rfl⟩ := Option.map_eq_some_iff.mp hsp
  exact h.spill sp0 h0

theorem Channel.active_shift (c : Channel) (unit : WidthUnit) (δ : BitVec 32) :
    (c.shift unit δ).state.active = c.state.active := by
  unfold Channel.shift
  split
  · next hstop => rw [hstop]; rfl
  · rfl

theorem Channel.merges_shift (c : Channel) (unit : WidthUnit) (δ : BitVec 32) :
    (c.shift unit δ).merges = c.merges := by
  unfold Channel.shift; split <;> rfl

/-- Each channel is shifted by its unit. -/
theorem State.get_shiftAou (s : State) (δ : BitVec 32) (i : Fin 4) :
    (s.shiftAou δ).aou.channels.get i = (s.aou.channels.get i).shift (s.unitOf i) δ := by
  match i with
  | 0 => rfl
  | 1 => rfl
  | 2 => rfl
  | 3 => rfl

theorem AouPart.shift (s : State) (δ : BitVec 32) : AouPart s.aou (s.shiftAou δ).aou := by
  refine ⟨fun ok i => ?_, fun i => ?_⟩
  · rw [State.get_shiftAou, Channel.merges_shift]
    exact ok i
  · rw [State.get_shiftAou, Channel.active_shift]
    rfl

theorem LbiOk.shift {l : Lbi} (h : LbiOk l) (δ : BitVec 32) : LbiOk (l.shift δ) := by
  refine ⟨h.inbound, h.run, fun x hx => ?_⟩
  obtain ⟨y, hy, rfl⟩ := Option.map_eq_some_iff.mp hx
  exact h.failed y hy

namespace Keeps

variable {s t : State}

theorem shiftPositions (h : Keeps s t) (hc : s.configured = true) (δ : BitVec 32) :
    Keeps s (t.shiftPositions δ) := by
  have h1 := h.withMke fun ok => MkeOk.shift ok δ
  have h2 := h1.withScu (x := t.scu.shift δ) id
  have h3 := h2.withAou hc (AouPart.shift _ δ)
  have h4 := h3.withRmu fun g => RmuOk.shift (h3.rmu g) δ
  exact h4.withLbi (fun ok => ok.shift δ) (fun ok => ok.shift δ)

theorem zeroLcu (h : Keeps s t) (hc : s.configured = true) (δ : BitVec 32) {rem : Nat}
    (hrem : 1 ≤ t.cfg.ratioD → rem < t.cfg.ratioD) : Keeps s (t.zeroLcu δ rem) :=
  h.withLcu id (fun ok => ⟨ok.ratioD, hrem ok.ratioD,
    fun hu => by rw [State.configured, State.stc_withLcu] at hu; rw [← State.configured, h.notUnconfigured hc] at hu;
                 cases hu⟩) id

theorem applyZero (h : Keeps s t) (hc : s.configured = true) (o : Nat) (z : Coord) (path : Nat)
    (captured : BitVec 32) : Keeps s (t.applyZero o z path captured) := by
  have h1 := (((h.shiftPositions hc (t.zeroDelta z path captured)).zeroLcu hc (t.zeroDelta z path captured)
    (fun hd => t.travel_remainder captured hd)).notice .zeroApplied (some o) none
      (some (t.zeroDelta z path captured)))
  unfold State.applyZero
  simp only
  split
  · exact h1.becomeActive hc
  · exact h1

end Keeps

/-! ### The warm reset -/

/-- The first part of a warm reset: marks and windows are gone, the channels idle, the set being wound closed. -/
def State.warmBlocks (s : State) : State :=
  (((s.withMke s.mke.warm).withScu s.scu.warm).withAou s.aou.idled).interruptSet

/-- The second: the CUTOVER frames that wait, in the queue, the slot or the loopback, are reported abandoned. -/
def State.warmLine (s : State) : State :=
  (s.lbi.outbound.foldl (fun t f => t.reportAbandoned f) s).abandonLoopback

theorem State.warmReset_eq (s : State) : s.warmReset =
    ((s.warmBlocks.warmLine.withLbi s.warmBlocks.warmLine.lbi.warm).withHtu s.warmBlocks.warmLine.htu.warm).withLcu
      s.warmBlocks.warmLine.lcu.warm := rfl

namespace Keeps

variable {s t : State}

theorem interruptSet (h : Keeps s t) (hc : s.configured = true) : Keeps s t.interruptSet := by
  have h0 := h.mergeBack hc
  unfold State.interruptSet
  simp only
  split
  · exact h0
  · next cur hcur =>
    have hset : RmuOk s.rmu → SetOk { cur with interrupted := true } :=
      fun g => ((h0.rmu g).current _ hcur).flags rfl rfl rfl
    have hnew : RmuOk s.rmu → SetOk (t.mergeBack.newSet 0) := fun g => State.newSet_ok (h0.rmu g) 0
    have h1 := State.closeAt_kept (keeps_marks hc) h0.useSetNumber { cur with interrupted := true }
      (t.mergeBack.newSet 0) t.mergeBack.lcu.coord
    have h2 := State.replaceCurrent_kept (keeps_marks hc) h1
      (fun g => State.closeAt_closed (s := t.mergeBack.useSetNumber) (hset g) (t.mergeBack.newSet 0)
        t.mergeBack.lcu.coord)
      (fun g => State.closeAt_set (s := t.mergeBack.useSetNumber) { cur with interrupted := true } (hnew g)
        t.mergeBack.lcu.coord)
    have h3 : ∀ u, Keeps s u → Keeps s (u.withRmu { u.rmu with pendingRead := none }) :=
      fun u hu => hu.withRmu fun g => (hu.rmu g).endRead none
    refine h3 _ (notice ?_ ..)
    split
    · split
      · exact State.cutPulse_kept (keeps_marks hc) h2 _
      · exact h2
    · exact h2

theorem abandonLoopback (h : Keeps s t) : Keeps s t.abandonLoopback := by
  unfold State.abandonLoopback
  split
  · split
    · exact h.announce ..
    all_goals exact h
  · exact h

theorem warmBlocks (h : Keeps s t) (hc : s.configured = true) : Keeps s t.warmBlocks :=
  (((h.withMke fun _ => MkeOk.empty rfl rfl).withScu fun _ => Nat.zero_le _).withAou hc
    (AouPart.idled _)).interruptSet hc

theorem warmLine (h : Keeps s t) : Keeps s t.warmLine :=
  (foldl_kept (Keeps s) (fun _ f hu => hu.reportAbandoned f) t.lbi.outbound h).abandonLoopback

theorem warmReset (h : Keeps s t) (hc : s.configured = true) : Keeps s t.warmReset := by
  rw [State.warmReset_eq]
  have h1 := (h.warmBlocks hc).warmLine
  generalize t.warmBlocks.warmLine = v at h1
  have h2 := h1.withLbi (x := v.lbi.warm) (fun _ => ⟨Nat.zero_le _, Nat.zero_le _, fun _ e => nomatch e⟩)
    (fun _ => OutboundOk.empty rfl rfl rfl)
  have h3 := h2.withHtu (x := v.htu.warm) (fun ok => ok.filterTable (fun _ => false) (by simp [Htu.warm, Htu.cold]))
    (fun _ => Nat.zero_le _)
  exact h3.withLcu (x := v.lcu.warm) id
    (fun ok => ⟨ok.ratioD, Nat.lt_of_lt_of_le Nat.zero_lt_one ok.ratioD, fun _ => rfl⟩) (fun _ => Nat.zero_le _)

end Keeps

end Sys2Proof.Machine
end

section
/-! What a command keeps of the state's invariants: the effect of every command but a cold reset and CONFIGURE. -/

namespace Sys2Proof.Machine

/-! ### Where a command finds the part configured -/

theorem State.configured_of_station {s : State} (h : s.stc.station ≠ .unconfigured) : s.configured = true := by
  simpa [State.configured] using h

theorem State.configured_of_onLine {s : State} (h : s.onLine = true) : s.configured = true := by
  refine State.configured_of_station fun hu => ?_
  simp [State.onLine, hu] at h

/-- A request that UNCONFIGURED refuses is taken in a configured state alone. -/
theorem Requested.configured {s : State} {r : Request} {p : List Byte} (h : Requested s r p)
    (hr : r.refusal .unconfigured ≠ none) : s.configured = true :=
  State.configured_of_station fun hu => hr (hu ▸ h.admitted)

namespace Keeps

variable {s t : State}

/-- The Length Counting Unit changes its remainder, in a configured part. -/
theorem withLcu_remainder (h : Keeps s t) (hc : s.configured = true) {x : Lcu}
    (hl : LevelsFollowPins t → LevelsFollowPins (t.withLcu x))
    (hr : 1 ≤ t.cfg.ratioD → t.lcu.remainder < t.cfg.ratioD → x.remainder < t.cfg.ratioD)
    (hrun : t.lcu.reverseRun ≤ 4294967295 → x.reverseRun ≤ 4294967295) : Keeps s (t.withLcu x) :=
  h.withLcu hl (fun ok => ⟨ok.ratioD, hr ok.ratioD ok.remainder,
    fun hu => nomatch (h.notUnconfigured hc).symm.trans hu⟩) hrun

/-! ### The encoder -/

/-- The part reads the encoder pins as they now are. -/
theorem reading (s : State) {x : Pins} (hr : x.resetn = s.pins.resetn) :
    Keeps s ((s.withPins x).withLcu { s.lcu with levels := some (x.enca, x.encb) }) where
  __ := refl s
  live h := State.live_iff.mpr (hr ▸ State.live_iff.mp h)
  levels _ _ _ := rfl
  lcu h := h.of_eq rfl rfl rfl
  holds h := h.of_eq rfl rfl rfl

theorem movedFrom (h : Keeps s t) (hc : s.configured = true) (a : Coord) (order : List MoveBlock) :
    Keeps s (t.movedFrom a order) := State.movedFrom_kept (keeps_parts hc) h a order

theorem forwardCount (h : Keeps s t) (hc : s.configured = true) (order : List MoveBlock) :
    Keeps s (t.forwardCount order) := by
  refine movedFrom (h.withLcu_remainder hc ?_ ?_ ?_) hc ..
  · exact id
  · exact fun hd _ => Nat.mod_lt _ hd
  · exact fun _ => Nat.zero_le _

theorem noticeReverse (h : Keeps s t) : Keeps s t.noticeReverse := by
  unfold State.noticeReverse
  split
  · exact (h.notice ..).withLcu_same rfl rfl rfl
  · exact h

theorem reverseCount (h : Keeps s t) (hc : s.configured = true) : Keeps s t.reverseCount :=
  noticeReverse (h.withLcu_remainder hc id (fun hd hr => (reverseStep_remainder hd hr).2) (fun ok => holdAdd_le ok))

theorem encoderFault (h : Keeps s t) : Keeps s t.encoderFault := by
  have h1 := (h.count .encoderErrors).fault .encoderError t.cfg.station
  unfold State.encoderFault State.noticeEncoder
  split
  · exact h1
  · exact (h1.notice ..).withLcu_same rfl rfl rfl

theorem decodeEncoder (hc : s.configured = true) {x : Pins} (hr : x.resetn = s.pins.resetn)
    (order : List MoveBlock) : Keeps s ((s.withPins x).decodeEncoder order) := by
  have h := reading s hr
  unfold State.decodeEncoder
  simp only
  split
  · exact h
  · split
    · exact h.forwardCount hc order
    · exact h.reverseCount hc
    · exact h.encoderFault
    · exact h

/-! ### Sensor edges -/

theorem capture (h : Keeps s t) (n : Fin 4) : Keeps s (t.capture n) := h.withScu id

theorem consumeNumber (h : Keeps s t) (p : Coord) : Keeps s (t.consumeNumber p) :=
  h.withMke fun ok => ⟨ok.room, ok.distinct, ok.names, ok.spill⟩

theorem offerMark (h : Keeps s t) (hc : s.configured = true) (o : MarkOffer) : Keeps s (t.offerMark o).1 :=
  State.offerMark_kept (keeps_marks hc) h o

theorem settleSpill (h : Keeps s t) (hc : s.configured = true) : Keeps s t.settleSpill :=
  State.settleSpill_kept (keeps_marks hc) h

theorem sourceMark (h : Keeps s t) (hc : s.configured = true) (kind : MarkKind) (lanes : Lanes) (p : Coord) :
    Keeps s (t.sourceMark kind lanes p) := by
  have h1 := (h.consumeNumber p).offerMark hc ((t.ownMarkFrame kind p lanes 0).ownOffer t.cfg.station)
  unfold State.sourceMark
  simp only
  split
  · next free => exact h1.queueNormal free (by simp) (by simp)
  · exact h1.notice ..

theorem trim (h : Keeps s t) (hc : s.configured = true) (d : Int) (order : List MoveBlock) :
    Keeps s (t.trim d order) := by
  unfold State.trim
  split
  · exact h
  · refine movedFrom (h.withLcu_same ?_ ?_ ?_) hc .. <;> rfl

theorem countFlash (h : Keeps s t) (first high : State) : Keeps s (t.countFlash first high) := by
  unfold State.countFlash
  split
  · exact h.withHtu (fun ok => ok.of_eq rfl rfl rfl) id
  · exact h

theorem captureWindow (h : Keeps s t) (hc : s.configured = true) (n : Fin 4) (w : Window) (order : List MoveBlock) :
    Keeps s (t.captureWindow n w order) := by
  have h1 : Keeps s ((t.removeWindow n w).windowClosed w true).settleSpill :=
    (State.windowClosed_kept (keeps_marks hc) (State.setWindows_kept (keeps_marks hc) h n _) w true).settleSpill hc
  unfold State.captureWindow
  simp only
  generalize ((t.removeWindow n w).windowClosed w true).settleSpill = u at h1
  split
  · have h2 := (h1.withScu (x := { u.scu with misses := 0 }) fun _ => Nat.zero_le _).releaseSightClaim
    exact ((h2.notice ..).trim hc _ order).countFlash _ _
  · exact h1.notice ..

theorem takeEdge (h : Keeps s t) (hc : s.configured = true) (n : Fin 4) (order : List MoveBlock) :
    Keeps s (t.takeEdge n order) := by
  unfold State.takeEdge
  split
  · split
    · exact h
    · exact (h.capture n).sourceMark hc ..
    · unfold State.sightEdge
      split
      · exact h.capture n
      · exact (h.capture n).captureWindow hc ..
    · exact (h.capture n).sensorCut hc _
  · exact h

theorem filterLevel (h : Keeps s t) (hc : s.configured = true) (n : Fin 4) (level : Level) (order : List MoveBlock) :
    Keeps s (t.filterLevel n level order) := by
  have h1 := h.withScu (x := { t.scu with filtered := t.scu.filtered.set n (some level) }) id
  unfold State.filterLevel
  simp only
  split
  · exact h1
  · split
    · exact h1.takeEdge hc n order
    · exact h1

/-! ### Timers -/

theorem makeStale (h : Keeps s t) (hc : s.configured = true) {o : Nat} (ho : o ≠ t.cfg.station) :
    Keeps s (t.makeStale o) := by
  refine notice (h.withHtu (fun ok => ?_) ?_) ..
  on_goal 2 => exact id
  have hf : ∀ r : HoldRecord, (if r.origin = o then { r with stale := true } else r).origin = r.origin ∧
      (if r.origin = o then { r with stale := true } else r).claim = r.claim := fun r => by split <;> exact ⟨rfl, rfl⟩
  refine ok.withTable (ok.table.map (fun r => (hf r).1) (fun r => (hf r).2)) ?_ ?_ (fun hu => ?_)
  · intro r hr
    obtain ⟨q, hq, rfl⟩ := List.mem_map.mp hr
    rw [(hf q).1]
    exact ok.origins q hq
  · intro r hr hown
    obtain ⟨q, hq, rfl⟩ := List.mem_map.mp hr
    rw [(hf q).1] at hown
    rw [if_neg fun e => ho (e.symm.trans hown)]
    exact ok.own q hq hown
  · rw [h.notUnconfigured hc] at hu; cases hu

theorem refreshNow (h : Keeps s t) : Keeps s t.refreshNow := by
  have htimer : ∀ r tail, tail ≤ t.htu.tail → Keeps s (t.withHtu { t.htu with refresh := r, tail := tail }) :=
    fun _ _ hle => h.withHtu (fun ok => ok.of_eq rfl rfl rfl) hle.trans
  unfold State.refreshNow
  split
  · exact (htimer _ _ (Nat.le_refl _)).request .claims
  · split
    · exact (htimer _ _ (Nat.sub_le _ _)).request .claims
    · exact htimer _ _ (Nat.le_refl _)

theorem endJoin (h : Keeps s t) (hc : s.configured = true) (hst : t.stc.station = .joining) (o : NoticeOrder) :
    Keeps s (t.endJoin o) := by
  have h1 : Keeps s (t.withStc { t.stc with join := none }) := h.enters hc (by simp [hst]) rfl rfl rfl
  have hdone : ∀ st u, Keeps s u → Keeps s (State.noticeJoinDone st u) := fun st u hu => hu.notice ..
  unfold State.endJoin
  simp only
  split
  · exact hdone _ _ (h1.becomeActive hc)
  · exact (h1.enterDesync hc o (hdone .desync)).clearSync
  · exact (h1.enterDesync hc o (hdone .desync)).clearSync

/-! ### The line -/

theorem trailingRecessive_le (bits : List Bool) : trailingRecessive bits ≤ 255 := Nat.min_le_left _ _

theorem startable_failed {l m : Lbi} {x : SendSlot} (hs : l.startable = some (x, m)) :
    (l.slot = some x ∨ x.failed = 0) ∧ m.inbound = l.inbound ∧ m.recessiveRun = l.recessiveRun := by
  unfold Lbi.startable at hs
  split at hs
  · next y hy =>
    split at hs <;> cases hs
    exact ⟨.inl hy, rfl, rfl⟩
  · split at hs
    · split at hs <;> cases hs; exact ⟨.inr rfl, rfl, rfl⟩
    · split at hs
      · cases hs; exact ⟨.inr rfl, rfl, rfl⟩
      · split at hs <;> cases hs
        exact ⟨.inr rfl, rfl, rfl⟩
    · split at hs <;> cases hs; exact ⟨.inr rfl, rfl, rfl⟩
    · cases hs

theorem Lbi.same_settleDeferred (before l : Lbi) : Lbi.settleDeferred before l = { l with
    normal := (Lbi.settleDeferred before l).normal, deferred := (Lbi.settleDeferred before l).deferred } := by
  unfold Lbi.settleDeferred Lbi.queueNormal
  split
  · split
    · rfl
    · split <;> rfl
  · rfl

theorem beginAttempt (h : Keeps s t) {x : SendSlot} {l : Lbi} (hs : t.lbi.startable = some (x, l)) :
    Keeps s (t.beginAttempt x l) := by
  obtain ⟨hfailed, hin, -⟩ := startable_failed hs
  refine h.withLbi (fun ok => ⟨?_, Nat.zero_le _, fun y hy => ?_⟩)
    (fun ok => ((ok.startable hs).settleDeferred t.lbi).of_eq rfl rfl rfl)
  · have hsame : (Lbi.settleDeferred t.lbi l).inbound = l.inbound := by rw [Lbi.same_settleDeferred]
    simpa only [hsame, hin] using ok.inbound
  · cases hy
    rcases hfailed with hslot | hzero
    · exact ok.failed x hslot
    · omega

/-- The aborted attempt with its frame kept, at less than eight failures. -/
theorem abortAttempt (h : Keeps s t) {x : SendSlot} : Keeps s (t.abortAttempt x) := by
  -- the notice and the counters of an aborted attempt do not look at the Line Bus Interface
  have hfail : ∀ l : Lbi, (LbiOk t.lbi → LbiOk l) → (OutboundOk t.lbi → OutboundOk l) →
      Keeps s (if x.failed = 0 then ((t.withLbi l).count .framesAborted).notice .frameAborted
        (some t.cfg.station) none (valueOf x.frame.kind.byte) else (t.withLbi l).count .framesAborted) := by
    intro l hl ho
    have h1 := (h.withLbi hl ho).count .framesAborted
    split
    · exact h1.notice ..
    · exact h1
  unfold State.abortAttempt
  simp only
  split
  · next hdrop =>
    have h1 := hfail { t.lbi with slot := none, attempt := none, line := .waitIdle, recessiveRun := 0 }
      (fun ok => ⟨ok.inbound, Nat.zero_le _, fun _ e => nomatch e⟩) (fun ok => ok.of_eq rfl rfl rfl)
    rw [if_neg (by omega)] at h1 ⊢
    have h2 := (((h1.notice .sendFailed (some t.cfg.station) none (valueOf x.frame.kind.byte)).count
      .framesDropped).fault .sendFailed t.cfg.station).reportAbandoned x.frame
    have h3 := h2.withLbi (x := { State.lbi _ with mode := .quiet, quiet := some (t.ahead t.cfg.quietInterval) })
      (fun ok => ok.of_eq rfl rfl rfl) (fun ok => ok.of_eq rfl rfl rfl)
    cases hf : x.frame <;> rw [hf] at h3 <;> exact h3
  · next hkeep =>
    exact hfail _ (fun ok => ⟨ok.inbound, Nat.zero_le _, fun _ e => by cases e; simp only; omega⟩)
      (fun ok => ok.of_eq rfl rfl rfl)

theorem dismissStale (h : Keeps s t) (o : Nat) : Keeps s (t.dismissStale o) := by
  have h1 := h.withHtu (x := { t.htu with table := t.htu.table.filter (fun q => !(q.origin == o && q.stale)) })
    (fun ok => ok.filterTable _ rfl) id
  unfold State.dismissStale
  simp only
  split
  · exact h1
  · exact h1.notice ..

theorem endAttempt (h : Keeps s t) (f : LineFrame) (x : SendSlot) : Keeps s (t.endAttempt f x) := by
  have h1 := h.withLbi_same (x := { t.lbi with
      slot := none, attempt := none, yieldPending := t.lbi.yieldPending || f.kind.normalClass, errorRun := false
      line := .waitIdle, recessiveRun := trailingRecessive f.wire })
    (Nat.le_refl _) (trailingRecessive_le _) (.inr rfl) rfl rfl rfl
  unfold State.endAttempt State.handOn
  split
  · exact h1.withLbi (fun ok => ok.of_eq rfl rfl rfl) (fun ok => ok.of_eq rfl rfl rfl)
  · exact h1.withLbi (fun ok => ok.of_eq rfl rfl rfl) (fun ok => ok.of_eq rfl rfl rfl)
  · split
    · exact h1.withMke fun ok => ⟨ok.room, ok.distinct, ok.names, ok.spill⟩
    · exact h1
  · exact h1.dismissStale _
  all_goals exact h1

theorem discardFrame (h : Keeps s t) (cause : Nat) (bits : List Bool) :
    Keeps s (t.discardFrame cause (trailingRecessive bits)) := by
  have h1 := (h.withLbi_same (x := { t.lbi with
      line := .waitIdle, recessiveRun := trailingRecessive bits, errorRun := true })
    (Nat.le_refl _) (trailingRecessive_le _) (.inl rfl) rfl rfl rfl).count .receiveErrors
  unfold State.discardFrame
  simp only
  split
  · exact h1
  · exact h1.notice ..

theorem offerInbound (h : Keeps s t) (f : LineFrame) : Keeps s (t.offerInbound f) := by
  unfold State.offerInbound
  split
  · next room =>
    exact h.withLbi (fun ok => ⟨by simp only [List.length_append, List.length_singleton]; omega, ok.run, ok.failed⟩)
      (fun ok => ok.of_eq rfl rfl rfl)
  · have h1 := h.count .inboundOverruns
    simp only
    split
    · exact h1
    · exact ((h1.notice ..).fault ..).withLbi (fun ok => ok.of_eq rfl rfl rfl) (fun ok => ok.of_eq rfl rfl rfl)

theorem receiveFrame (h : Keeps s t) (f : LineFrame) (bits : List Bool) (o : NoticeOrder) :
    Keeps s (t.receiveFrame f (trailingRecessive bits) o) := by
  have h1 := h.withLbi_same (x := { t.lbi with
      line := .waitIdle, recessiveRun := trailingRecessive bits, errorRun := false })
    (Nat.le_refl _) (trailingRecessive_le _) (.inl rfl) rfl rfl rfl
  unfold State.receiveFrame
  simp only
  split
  · split
    · next hon => exact h1.enterSilent (h.configured ▸ State.configured_of_onLine hon) ..
    · exact h1
  · exact h1.offerInbound f

/-! ### The takes of frames -/

theorem dequeued (s : State) : Keeps s s.dequeued :=
  (refl s).withLbi (fun ok => ⟨List.length_tail ▸ (Nat.sub_le _ _).trans ok.inbound, ok.run, ok.failed⟩)
    (fun ok => ok.of_eq rfl rfl rfl)

theorem looped (s : State) : Keeps s s.looped :=
  (refl s).withLbi (fun ok => ok.of_eq rfl rfl rfl) (fun ok => ok.of_eq rfl rfl rfl)

theorem setOrigin (h : Keeps s t) (o : Nat) (e : OriginEntry) : Keeps s (t.setOrigin o e) :=
  h.withMke fun ok => ⟨ok.room, ok.distinct, ok.names, ok.spill⟩

theorem staleMark (h : Keeps s t) (o : Nat) (m : MarkFrame) (d : Nat) : Keeps s (t.staleMark o m d) := by
  have h1 := h.notice .markStale (some o) (some m.number) (valueOf d)
  unfold State.staleMark
  simp only
  split
  · exact h1
  · split
    · exact h1.setOrigin ..
    · exact h1

theorem offerBlind (h : Keeps s t) (hc : s.configured = true) (q : Coord) (x : Nat) :
    Keeps s (t.offerPlain (t.blindOffer q x false)).1 :=
  State.offerPlain_kept (keeps_marks hc) h _ fun _ => Mke.fresh_blind _ _ rfl

theorem reportGap (h : Keeps s t) (hc : s.configured = true) (o : Nat) (n : MarkNo) (missing : Nat) (l p : Coord) :
    Keeps s (t.reportGap o n missing l p) := by
  unfold State.reportGap
  simp only
  have h1 := foldl_kept (Keeps s) (fun u (qx : Coord × Nat) hu => hu.offerBlind hc qx.1 qx.2)
    (gapChain 4 (earlier l p) (later l p - earlier l p).toNat).1 h
  refine count (notice ?_ ..) _
  split
  · exact State.foldSpill_kept (keeps_marks hc) h1 ..
  · exact h1

theorem currentMark (h : Keeps s t) (hc : s.configured = true) (o : Nat) (m : MarkFrame) (p : Coord)
    (rebased : Bool) : Keeps s (t.currentMark o m p rebased) := by
  unfold State.currentMark
  simp only
  split
  · exact (h.setOrigin ..).offerMark hc _
  · exact (h.setOrigin ..).offerMark hc _
  · exact ((h.reportGap hc ..).setOrigin ..).offerMark hc _
  · exact h.notice ..

theorem takeMark (h : Keeps s t) (hc : s.configured = true) (n : NoticeOrder) (o : Nat) (m : MarkFrame) :
    Keeps s (t.takeMark n o m) := by
  unfold State.takeMark
  split
  · split
    · exact h.notice ..
    · unfold State.compareMark
      simp only
      split_ifs
      · exact h.currentMark hc ..
      · exact h.currentMark hc ..
      · exact (h.enterDesync hc n fun _ hu => hu.epochAhead ..).clearSync
      · exact h.staleMark ..
  · exact h

theorem takeZero (h : Keeps s t) (hc : s.configured = true) (e : InEntry) : Keeps s (t.takeZero e) := by
  unfold State.takeZero
  split_ifs
  · exact h.notice ..
  · exact h.applyZero hc ..
  · exact h

theorem takeOwnZero (h : Keeps s t) (hc : s.configured = true) (b : Loopback) : Keeps s (t.takeOwnZero b) := by
  unfold State.takeOwnZero
  split
  · exact h.applyZero hc ..
  · exact h

theorem takeHold (h : Keeps s t) (hc : s.configured = true) (e : InEntry) : Keeps s (t.takeHold e) := by
  unfold State.takeHold
  simp only
  split
  · next hok =>
    obtain ⟨hlow, hhigh, hfits, -⟩ := holdOk_iff.mp hok
    rw [State.holdFrom_eq]
    have h1 : Keeps s (t.held e.frame.origin (parseHold e.frame.payload).1 (parseHold e.frame.payload).2.1
        (parseHold e.frame.payload).2.2) :=
      h.withHtu (fun ok => ok.putTable (h.notUnconfigured hc) rfl ⟨hlow, hhigh⟩
        (lt_four_of_reasonFits (reasonFits_iff.mpr hfits)) rfl) id
    split
    · exact h1.notice ..
    · exact h1
  · exact h.notice ..

theorem takeRelease (h : Keeps s t) (e : InEntry) : Keeps s (t.takeRelease e) := by
  unfold State.takeRelease
  simp only
  split
  · exact h.withHtu (fun ok => ok.filterTable _ rfl) id
  · exact h.notice ..

theorem takeDismiss (h : Keeps s t) (e : InEntry) : Keeps s (t.takeDismiss e) := by
  unfold State.takeDismiss
  simp only
  split
  · exact h.dismissStale _
  · exact h.notice ..

/-- The records a CLAIMS frame lists, put into the table one after another. -/
theorem HoldsOk.putAll {u : State} (hu : HoldsOk u) (hc : u.configured = true) (rs : List HoldRecord)
    (hrs : ∀ r ∈ rs, (1 ≤ r.origin ∧ r.origin ≤ 24) ∧ r.claim < 4 ∧ r.stale = false) (x : Htu) :
    HoldsOk (u.withHtu { x with table := rs.foldl (fun t r => putHold r t) u.htu.table }) := by
  induction rs generalizing u with
  | nil => exact hu.of_eq rfl rfl rfl
  | cons r rs ih =>
    obtain ⟨ho, hn, hr⟩ := hrs r (List.mem_cons_self ..)
    exact ih (hu.putTable hc (x := { x with table := putHold r u.htu.table }) rfl ho hn hr) hc
      fun q hq => hrs q (List.mem_cons_of_mem _ hq)

theorem takeClaimList (h : Keeps s t) (hc : s.configured = true) {o : Nat} (ho : 1 ≤ o ∧ o ≤ 24)
    {claims : List (Nat × Reason)} (hclaims : ∀ c ∈ claims, c.1 < 4) : Keeps s (t.takeClaimList o claims) := by
  have h1 : Keeps s (t.withHtu (({ t.htu with table := ((claims.map (t.htu.listed o)).foldl (fun u r => putHold r u)
      (t.htu.table.filter (fun r => r.origin != o))) } : Htu).hear o t.stc.now)) := by
    refine h.withHtu (fun ok => ?_) id
    have hothers := ok.filterTable (x := { t.htu with table := t.htu.table.filter (fun r => r.origin != o) }) _ rfl
    refine (HoldsOk.putAll hothers (h.notUnconfigured hc) _ (fun r hr => ?_) t.htu).of_eq rfl rfl rfl
    obtain ⟨c, hcm, rfl⟩ := List.mem_map.mp hr
    exact ⟨ho, hclaims c hcm, rfl⟩
  unfold State.takeClaimList
  simp only
  split
  · exact h1
  · exact h1.notice ..

theorem joinEpoch (h : Keeps s t) (o : Nat) (e : Epoch) : Keeps s (t.joinEpoch o e) := by
  unfold State.joinEpoch
  simp only
  split
  · exact h.withLcu_same rfl rfl rfl
  · split
    · exact (h.epochAhead ..).withLcu_same rfl rfl rfl
    · exact h
  · exact h

theorem adoptEpoch (h : Keeps s t) (e : Epoch) : Keeps s (t.adoptEpoch e) := by
  unfold State.adoptEpoch
  split
  · exact h.withLcu_same rfl rfl rfl
  · exact h

theorem takeClaims (h : Keeps s t) (hc : s.configured = true) (n : NoticeOrder) (e : InEntry) :
    Keeps s (t.takeClaims n e) := by
  unfold State.takeClaims
  simp only
  split
  · next hok =>
    simp only [claimsOk, Bool.and_eq_true, validStation_iff, List.all_eq_true, decide_eq_true_eq] at hok
    obtain ⟨⟨⟨ho, -⟩, hall⟩, -⟩ := hok
    have hclaims : ∀ c ∈ parseClaims e.frame.payload, c.1 < 4 := fun c hcm => (hall c hcm).1
    unfold State.compareClaims
    split
    · split
      · split
        · exact ((h.enterDesync hc n fun _ hu => hu.epochAhead ..).takeClaimList hc ho hclaims).clearSync
        · exact h.takeClaimList hc ho hclaims
      · exact (h.joinEpoch ..).takeClaimList hc ho hclaims
      · exact (h.adoptEpoch ..).takeClaimList hc ho hclaims
      · exact h.takeClaimList hc ho hclaims
      · exact h.takeClaimList hc ho hclaims
    · exact h.takeClaimList hc ho hclaims
  · exact h.notice ..

theorem takeCensus (h : Keeps s t) (e : InEntry) : Keeps s (t.takeCensus e) := by
  unfold State.takeCensus
  split_ifs
  · exact h.notice ..
  · exact h.request .claims
  · exact h

theorem takeCutover (h : Keeps s t) (hc : s.configured = true) (e : InEntry) : Keeps s (t.takeCutover e) := by
  unfold State.takeCutover
  split
  · exact h.followCut hc ..
  · exact h

/-! ### The takes of requests -/

theorem takeNoticesNow (h : Keeps s t) (p : List Byte) : Keeps s (t.takeNoticesNow p) := by
  have h1 : ∀ n, Keeps s (t.removeNotices n) := by
    intro n
    have h2 := h.withLpt (x := { t.lpt with notices := t.lpt.notices.drop n })
      fun ok => ⟨by simp only [List.length_drop]; exact (Nat.sub_le _ _).trans ok.notices, ok.lost⟩
    have h3 : ∀ u, Keeps s u → Keeps s (u.withLcu { u.lcu with encoderOutstanding := false }) :=
      fun u hu => hu.withLcu_same rfl rfl rfl
    have h4 : ∀ u, Keeps s u → Keeps s ((u.withLpt { u.lpt with lost := 0 }).notice .noticesLost none none
        (valueOf t.lpt.lost)) :=
      fun u hu => (hu.withLpt (x := { u.lpt with lost := 0 }) fun ok => ⟨ok.notices, Nat.zero_le _⟩).notice ..
    unfold State.removeNotices
    simp only
    split_ifs
    · exact h4 _ (h3 _ h2)
    · exact h4 _ h2
    · exact h3 _ h2
    · exact h2
  unfold State.takeNoticesNow
  split
  · exact (h1 _).answer ..
  · exact h.answer ..

theorem useFree (h : Keeps s t) (p : Placement) : Keeps s (t.useFree p) := by
  cases p with
  | repeated => exact h.withMke fun ok => ⟨ok.room, ok.distinct, ok.names, ok.spill⟩
  | queued | spilled | notQueued | clash => exact h

/-- The last check of POST MARK is that a normal place is free. -/
theorem normalFree_of_postRefusal {f : PostFields} (h : t.postRefusal f = none) : t.lbi.normalFree = true := by
  unfold State.postRefusal at h
  split at h
  · cases h
  · split at h
    · cases h
    · split at h
      · cases h
      · split at h
        · cases h
        · next hfree => simpa using hfree

theorem takePost (h : Keeps s t) (hc : s.configured = true) (p : List Byte) : Keeps s (t.takePost p) := by
  unfold State.takePost
  split
  · exact h.answer ..
  · next hr =>
    unfold State.acceptPost
    simp only
    have h1 := (h.consumeNumber (t.postPosition (parsePost p))).queueNormal (normalFree_of_postRefusal (t := t) hr)
      (f := .mark (t.ownMarkFrame (Fin.ofNat 8 (parsePost p).kind) (t.postPosition (parsePost p)) (parsePost p).lanes
        (parsePost p).extent)) (by simp) (by simp)
    exact ((h1.offerMark hc _).useFree _).answer ..

theorem takeZeroRequest (h : Keeps s t) (p : List Byte) : Keeps s (t.takeZeroRequest p) := by
  unfold State.takeZeroRequest
  split
  · exact h.answer ..
  · split
    · exact h.answer ..
    · next free => exact (h.queueUrgent (by simpa using free) _).answer ..

theorem takeDismissRequest (h : Keeps s t) (p : List Byte) : Keeps s (t.takeDismissRequest p) := by
  unfold State.takeDismissRequest
  simp only
  split
  · exact h.answer ..
  · split
    · exact h.answer ..
    · next free => exact (h.queueUrgent (by simpa using free) _).answer ..

theorem takeHoldRequest (h : Keeps s t) (hc : s.configured = true) (p : List Byte) :
    Keeps s (t.takeHoldRequest p) := by
  unfold State.takeHoldRequest
  simp only
  split_ifs with hn
  · exact h.answer ..
  · exact h.answer ..
  · exact h.answer ..
  · exact (h.makeClaim hc (by omega) ..).answer ..

theorem takeReleaseRequest (h : Keeps s t) (p : List Byte) : Keeps s (t.takeReleaseRequest p) := by
  unfold State.takeReleaseRequest
  simp only
  split_ifs with hn
  · exact h.answer ..
  · exact h.answer ..
  · exact h.answer ..
  · exact h.answer ..
  · have h1 := h.releaseClaim (n := byteAt p 0) (by omega)
    refine answer ?_ ..
    unfold State.clearMisses
    split
    · exact h1.withScu fun _ => Nat.zero_le _
    · exact h1

theorem current_of_currentSet {cur : RollSet} (h : t.currentSet = some cur) : t.rmu.current = some cur := by
  unfold State.currentSet at h
  split at h
  · exact h
  · cases h

theorem takeCutoverAt (h : Keeps s t) (p : List Byte) : Keeps s (t.takeCutoverAt p) := by
  unfold State.takeCutoverAt
  simp only
  split
  · exact h.answer ..
  · next cur hcur =>
    split_ifs
    · exact h.answer ..
    · exact h.answer ..
    · exact h.answer ..
    · exact (h.planCut (fun g => (h.rmu g).current _ (current_of_currentSet hcur)) _).answer ..

theorem takeCutoverNow (h : Keeps s t) (hc : s.configured = true) (p : List Byte) : Keeps s (t.takeCutoverNow p) := by
  unfold State.takeCutoverNow
  split
  · exact h.answer ..
  · next cur hcur =>
    split_ifs
    · exact h.answer ..
    · exact h.answer ..
    · exact h.answer ..
    · exact (h.closeWithNew hc (fun g => (h.rmu g).current _ (current_of_currentSet hcur)) _ true).answer ..

theorem takeCancel (h : Keeps s t) (hc : s.configured = true) (p : List Byte) : Keeps s (t.takeCancel p) := by
  unfold State.takeCancel
  split
  · split
    · exact (h.mergeBack hc).answer ..
    · exact h.answer ..
  · exact h.answer ..

theorem takeReadRoll (h : Keeps s t) (p : List Byte) : Keeps s (t.takeReadRoll p) := by
  have hpending : ∀ r, Keeps s (t.readPending r) := fun r => (h.withRmu fun g => (h.rmu g).endRead _).answer ..
  unfold State.takeReadRoll
  simp only
  split
  · exact h.answer ..
  · split
    · exact h.answer ..
    · split
      · refine answer (h.withRmu fun g => RmuOk.setClosed (h.rmu g) ?_ ?_ _) ..
        · simpa using (h.rmu g).room
        · intro c hcm
          obtain ⟨d, hd, rfl⟩ := List.mem_map.mp hcm
          have ok := (h.rmu g).closed d hd
          split
          · exact ⟨ok.set, ok.length, ok.inside⟩
          · exact ok
      · split
        · unfold State.readOpen
          split
          · split
            · exact hpending _
            · exact h.answer ..
          · exact hpending _
        · exact (h.withRmu fun g => (h.rmu g).endRead _).answer ..

theorem takeFreeRoll (h : Keeps s t) (p : List Byte) : Keeps s (t.takeFreeRoll p) := by
  unfold State.takeFreeRoll
  simp only
  split_ifs
  · exact h.answer ..
  · exact h.answer ..
  · exact h.answer ..
  · refine answer (h.withRmu fun g => RmuOk.setClosed (h.rmu g) ?_ ?_ _) ..
    · exact (List.length_filter_le _ _).trans (h.rmu g).room
    · exact fun c hcm => (h.rmu g).closed c (List.mem_of_mem_filter hcm)

end Keeps

/-! ### Every effect -/

/-- Every effect but those of a cold reset and of CONFIGURE. -/
theorem Effect.keeps {s u : State} {c : Instr} (h : Effect s c u) (hcold : ∀ lcs, c ≠ .coldReset lcs)
    (hconf : c ≠ .configure) : Keeps s u := by
  have r := Keeps.refl s
  cases h with
  | coldReset lcs => exact absurd rfl (hcold lcs)
  | resetnHeldLow =>
    have hlow : Keeps s (s.withPins { s.pins with resetn := .low }) :=
      r.withPins (by simp) fun _ hl => absurd (State.live_iff.mp hl) (by simp)
    exact hlow.withLbi (fun ok => ok.of_eq rfl rfl rfl) (fun ok => ok.of_eq rfl rfl rfl)
  | encoderCount line order live configured =>
    exact Keeps.decodeEncoder configured (x := s.pins.toggle line) (by cases line <;> rfl) order
  | encoderError live configured =>
    exact Keeps.decodeEncoder configured (x := (s.pins.toggle .enca).toggle .encb) rfl []
  | sensorEdge n level order live configured =>
    exact (r.withPins (x := { s.pins with sensors := s.pins.sensors.set n level }) id id).filterLevel configured
      n level order
  | timebaseAdvance => exact r.withStc rfl rfl rfl (fun _ => rfl) (.refl _) id
  | msPulseEnd ch live configured ended =>
    exact (State.pulseEnded_kept (keeps_marks configured) (State.idleChannel_kept (keeps_marks configured) r ch)
      ch).settleSpill configured
  | claimStale o live configured silent =>
    refine r.makeStale configured fun e => ?_
    simp [State.silentTooLong, e] at silent
  | refreshExpiry => exact r.refreshNow
  | quietExpiry => exact r.withLbi (fun ok => ok.of_eq rfl rfl rfl) (fun ok => ok.of_eq rfl rfl rfl)
  | discardExpiry => exact r.withRmu fun g => g.endRead none
  | joinDone o live joining => exact r.endJoin (State.configured_of_station (by simp [joining])) joining o
  | lineIdle => exact r.withLbi_same (Nat.le_refl _) (by simp) (.inl rfl) rfl rfl rfl
  | yieldGapEnd => exact r.withLbi_same (Nat.le_refl _) (by simp) (.inl rfl) rfl rfl rfl
  | startBitRead => exact r.withLbi_same (Nat.le_refl _) (by simp) (.inl rfl) rfl rfl rfl
  | arbitrationLost => exact r.withLbi_same (Nat.le_refl _) (by simp) (.inl rfl) rfl rfl rfl
  | attemptStart x l live ready startable => exact r.beginAttempt startable
  | frameAborted x live attempt slot => exact r.abortAttempt
  | ownFrameEnd f x live attempt slot => exact r.endAttempt f x
  | receiveError bits cause live => exact r.discardFrame cause bits
  | validFrameEnd bits o f live => exact r.receiveFrame f bits o
  | markFrame o e next => exact (Keeps.dequeued s).takeMark next.configured ..
  | zeroFrame e next => exact (Keeps.dequeued s).takeZero next.configured e
  | zeroLoopback b next => exact (Keeps.looped s).takeOwnZero next.configured b
  | cutoverLoopback b next => exact (Keeps.looped s).announce ..
  | holdFrame e next => exact (Keeps.dequeued s).takeHold next.configured e
  | releaseFrame e next => exact (Keeps.dequeued s).takeRelease e
  | dismissFrame e next => exact (Keeps.dequeued s).takeDismiss e
  | claimsFrame o e next => exact (Keeps.dequeued s).takeClaims next.configured o e
  | censusFrame e next => exact (Keeps.dequeued s).takeCensus e
  | cutoverFrame e next => exact (Keeps.dequeued s).takeCutover next.configured e
  | lcsRise bits live => exact r.withPins id id
  | localTransaction bits live =>
    have h1 := r.withPins (x := { s.pins with ldo := shiftOut s.lpt.slot.shiftedOut bits.length }) id id
    exact h1.withLpt fun ok => ⟨ok.notices, ok.lost⟩
  | answered c code status payload live => exact r.answerCode ..
  | configure p req => exact absurd rfl hconf
  | restart p req =>
    have hc := req.configured (by decide)
    exact ((r.warmReset hc).enterJoining hc).answer ..
  | takeNotices p req => exact r.takeNoticesNow p
  | readMarks p req =>
    unfold State.takeReadMarks
    split <;> exact r.answer ..
  | postMark p req => exact r.takePost (req.configured (by decide)) p
  | zero p req => exact r.takeZeroRequest p
  | readHolds p req =>
    unfold State.takeReadHolds
    split <;> exact r.answer ..
  | hold p req => exact r.takeHoldRequest (req.configured (by decide)) p
  | release p req => exact r.takeReleaseRequest p
  | dismiss p req => exact r.takeDismissRequest p
  | cutoverAt p req => exact r.takeCutoverAt p
  | cutoverNow p req => exact r.takeCutoverNow (req.configured (by decide)) p
  | cancelCutover p req => exact r.takeCancel (req.configured (by decide)) p
  | readRoll p req => exact r.takeReadRoll p
  | freeRoll p req => exact r.takeFreeRoll p

end Sys2Proof.Machine
end

section
/-! Between events no spill entry is owed: every event that retires records ends with the spill record settled. -/

namespace Sys2Proof.Machine

/-- No spill entry is owed (log 10). -/
def State.Settled (s : State) : Prop := s.mke.retired = 0

namespace State.Settled

variable {s t : State}

theorem of_retired (h : s.Settled) (e : t.mke.retired = s.mke.retired) : t.Settled := e.trans h

theorem of_mke (h : s.Settled) (e : t.mke = s.mke) : t.Settled := h.of_retired (by rw [e])

end State.Settled

/-! ### Marks -/

theorem settleLoop_settled (n : Nat) (s : State) : (settleLoop n s).Settled := by
  induction n generalizing s with
  | zero => rfl
  | succ n ih =>
    unfold settleLoop
    split
    · assumption
    · split
      · rfl
      · exact ih _

theorem State.settleSpill_settled (s : State) : s.settleSpill.Settled := by
  unfold State.settleSpill
  split
  · split
    · assumption
    · rfl
  · exact settleLoop_settled ..

theorem State.offerPlain_settled (s : State) (o : MarkOffer) : (s.offerPlain o).1.Settled :=
  State.settleSpill_settled _

theorem State.offerMark_settled {s : State} (h : s.Settled) (o : MarkOffer) : (s.offerMark o).1.Settled := by
  unfold State.offerMark
  split_ifs
  · exact h
  · exact State.offerPlain_settled ..
  · split
    · exact State.offerPlain_settled ..
    · split
      · exact h.of_mke rfl
      · exact State.offerPlain_settled ..

theorem State.mkeMove_settled (s : State) (a b : Coord) : (s.mkeMove a b).Settled := State.settleSpill_settled _

theorem State.cutPulse_settled {s : State} (h : s.Settled) (k : Coord) : (s.cutPulse k).Settled := by
  unfold State.cutPulse
  split
  · exact State.settleSpill_settled _
  · exact h

/-! ### What leaves the Mark Engine alone -/

@[simp] theorem State.mke_takeSightClaim (s : State) : s.takeSightClaim.mke = s.mke := by
  unfold State.takeSightClaim; split <;> simp

@[simp] theorem State.mke_releaseSightClaim (s : State) : s.releaseSightClaim.mke = s.mke := by
  unfold State.releaseSightClaim; split <;> simp

@[simp] theorem State.mke_takeDesyncClaim (s : State) : s.takeDesyncClaim.mke = s.mke := by
  unfold State.takeDesyncClaim; split <;> simp

@[simp] theorem State.mke_releaseDesyncClaim (s : State) : s.releaseDesyncClaim.mke = s.mke := by
  unfold State.releaseDesyncClaim; split <;> simp

@[simp] theorem State.mke_countMiss (s : State) (n : Fin 4) (w : Window) : (s.countMiss n w).mke = s.mke := by
  unfold State.countMiss; simp only; split <;> simp

@[simp] theorem State.mke_dropEntry (s : State) (r : RollSet) (e : RollEntry) : (s.dropEntry r e).1.mke = s.mke := by
  unfold State.dropEntry; split <;> simp

@[simp] theorem State.mke_enter (s : State) (r : RollSet) (e : RollEntry) : (s.enter r e).1.mke = s.mke := by
  unfold State.enter; split <;> simp

@[simp] theorem State.mke_enterAll (es : List RollEntry) (s : State) (r : RollSet) :
    (s.enterAll r es).1.mke = s.mke := by
  induction es generalizing s r with
  | nil => rfl
  | cons e es ih => simp only [State.enterAll]; rw [ih, State.mke_enter]

@[simp] theorem State.mke_dropAll (es : List RollEntry) (s : State) (r : RollSet) :
    (s.dropAll r es).1.mke = s.mke := by
  induction es generalizing s r with
  | nil => rfl
  | cons e es ih => simp only [State.dropAll]; rw [ih, State.mke_dropEntry]

@[simp] theorem State.mke_closeAt (s : State) (cur fol : RollSet) (k : Coord) :
    (s.closeAt cur fol k).1.mke = s.mke := State.mke_dropAll ..

@[simp] theorem State.mke_moveCut (s : State) (cur nxt : RollSet) (k : Coord) :
    (s.moveCut cur nxt k).1.mke = s.mke := by
  simp [State.moveCut]

@[simp] theorem State.mke_appendClosed (s : State) (c : ClosedSet) : (s.appendClosed c).mke = s.mke := by
  unfold State.appendClosed
  split
  · split <;> simp
  · rfl

@[simp] theorem State.mke_replaceCurrent (s : State) (c : ClosedSet) (fol : RollSet) :
    (s.replaceCurrent c fol).mke = s.mke := by
  simp [State.replaceCurrent]

@[simp] theorem State.mke_announceClose (s : State) (n : Nat) (k : Coord) (own : Bool) :
    (s.announceClose n k own).mke = s.mke := by
  unfold State.announceClose
  split_ifs <;> simp

@[simp] theorem State.mke_planCut (s : State) (cur : RollSet) (k : Coord) : (s.planCut cur k).mke = s.mke := by
  simp [State.planCut]

@[simp] theorem State.mke_reportAbandoned (s : State) (f : OutFrame) : (s.reportAbandoned f).mke = s.mke := by
  cases f <;> rfl

@[simp] theorem State.mke_foldl_reportAbandoned (fs : List OutFrame) (s : State) :
    (fs.foldl (fun t f => t.reportAbandoned f) s).mke = s.mke := by
  induction fs generalizing s with
  | nil => rfl
  | cons f fs ih => rw [List.foldl_cons, ih, State.mke_reportAbandoned]

@[simp] theorem State.mke_abandonLoopback (s : State) : s.abandonLoopback.mke = s.mke := by
  unfold State.abandonLoopback
  split
  · split <;> simp
  · rfl

@[simp] theorem State.mke_mergeBack (s : State) : s.mergeBack.mke = s.mke := by
  unfold State.mergeBack
  split <;> simp

@[simp] theorem State.mke_enterJoining (s : State) : s.enterJoining.mke = s.mke := by
  simp [State.enterJoining]

@[simp] theorem State.mke_discardOutbound (s : State) : s.discardOutbound.mke = s.mke := by
  simp [State.discardOutbound]

@[simp] theorem State.mke_enterSilent (s : State) (o : NoticeOrder) (k : FrameKind) :
    (s.enterSilent o k).mke = s.mke := by
  cases o <;> simp [State.enterSilent, inOrder, State.duplicateFound]

@[simp] theorem State.mke_becomeActive (s : State) : s.becomeActive.mke = s.mke := by
  simp [State.becomeActive]

@[simp] theorem State.mke_desyncBlocks (s : State) : s.desyncBlocks.mke = s.mke := by
  simp [State.desyncBlocks]

@[simp] theorem State.mke_cutIgnored (s : State) (o c : Nat) (k : Coord) : (s.cutIgnored o c k).mke = s.mke := rfl

@[simp] theorem State.mke_claimInvalid (s : State) (f : LineFrame) : (s.claimInvalid f).mke = s.mke := rfl

@[simp] theorem State.mke_epochAhead (s : State) (o : Nat) (n : Option MarkNo) (d : Nat) :
    (s.epochAhead o n d).mke = s.mke := rfl

@[simp] theorem State.mke_noticeJoinDone (st : StationState) (s : State) : (s.noticeJoinDone st).mke = s.mke := rfl

@[simp] theorem State.retired_setOrigin (s : State) (o : Nat) (e : OriginEntry) :
    (s.setOrigin o e).mke.retired = s.mke.retired := rfl

@[simp] theorem State.retired_consumeNumber (s : State) (p : Coord) :
    (s.consumeNumber p).mke.retired = s.mke.retired := rfl

@[simp] theorem State.mke_readClosed (s : State) (c : ClosedSet) (first count : Nat) :
    (s.readClosed c first count).mke = s.mke := rfl

@[simp] theorem State.mke_readPending (s : State) (r : RollSet) : (s.readPending r).mke = s.mke := rfl

@[simp] theorem State.mke_readOpen (s : State) (r : RollSet) : (s.readOpen r).mke = s.mke := by
  unfold State.readOpen
  split
  · split <;> simp
  · simp

@[simp] theorem State.mke_openFirstSet (s : State) : s.openFirstSet.mke = s.mke := by
  unfold State.openFirstSet; simp only; split <;> simp

@[simp] theorem State.mke_joinEpoch (s : State) (o : Nat) (e : Epoch) : (s.joinEpoch o e).mke = s.mke := by
  unfold State.joinEpoch
  simp only
  split
  · rfl
  · split <;> simp [State.epochAhead]
  · rfl

@[simp] theorem State.mke_adoptEpoch (s : State) (e : Epoch) : (s.adoptEpoch e).mke = s.mke := by
  unfold State.adoptEpoch; split <;> rfl

@[simp] theorem State.mke_takeClaimList (s : State) (o : Nat) (claims : List (Nat × Reason)) :
    (s.takeClaimList o claims).mke = s.mke := by
  unfold State.takeClaimList
  simp only
  split <;> simp

@[simp] theorem State.mke_dismissStale (s : State) (o : Nat) : (s.dismissStale o).mke = s.mke := by
  unfold State.dismissStale
  simp only
  split <;> simp

@[simp] theorem State.mke_holdFrom (s : State) (o n : Nat) (r : Reason) (m : Option MarkRef) :
    (s.holdFrom o n r m).mke = s.mke := by
  rw [State.holdFrom_eq]
  split <;> simp [State.held]

@[simp] theorem State.mke_removeNotices (s : State) (n : Nat) : (s.removeNotices n).mke = s.mke := by
  unfold State.removeNotices
  simp only
  split_ifs <;> simp

@[simp] theorem State.mke_clearMisses (s : State) (n : Nat) : (s.clearMisses n).mke = s.mke := by
  unfold State.clearMisses; split <;> rfl

@[simp] theorem State.mke_noticeReverse (s : State) : s.noticeReverse.mke = s.mke := by
  unfold State.noticeReverse; split <;> simp

@[simp] theorem State.mke_encoderFault (s : State) : s.encoderFault.mke = s.mke := by
  unfold State.encoderFault State.noticeEncoder; split <;> simp

@[simp] theorem State.mke_countFlash (s a b : State) : (s.countFlash a b).mke = s.mke := by
  unfold State.countFlash; split <;> rfl

namespace State.Settled

variable {s : State}

/-! ### Roll sets and movements -/

theorem closeSet (h : s.Settled) (cur fol : RollSet) (k : Coord) (own : Bool) : (s.closeSet cur fol k own).Settled := by
  have h1 : (((s.closeAt cur fol k).1.replaceCurrent (s.closeAt cur fol k).2.1 (s.closeAt cur fol k).2.2)).Settled :=
    h.of_mke (by simp)
  exact (State.cutPulse_settled h1 k).of_mke (by simp [State.closeSet])

theorem closeWithNew (h : s.Settled) (cur : RollSet) (k : Coord) (own : Bool) :
    (s.closeWithNew cur k own).Settled := closeSet (s := s.useSetNumber) (h.of_mke (by simp)) ..

theorem closeMoved (h : s.Settled) (cur nxt : RollSet) (k : Coord) (own : Bool) :
    (s.closeMoved cur nxt k own).Settled := closeSet (s := (s.moveCut cur nxt k).1) (h.of_mke (by simp)) ..

theorem rmuMove (h : s.Settled) (a b : Coord) : (s.rmuMove a b).Settled := by
  unfold State.rmuMove
  split
  · split
    · split
      · exact h.closeSet ..
      · exact h.of_mke (by simp)
    · exact h.of_mke (by simp)
  · exact h.of_mke (by simp)

theorem aouMove (h : s.Settled) (a b : Coord) : (s.aouMove a b).Settled := by
  refine foldl_kept State.Settled (fun t ch ht => ?_) _ h
  split
  · exact ht.of_mke (by simp)
  · exact ht

theorem scuMove (h : s.Settled) (a b : Coord) : (s.scuMove a b).Settled :=
  foldl_kept State.Settled (fun _ _ _ => (State.settleSpill_settled _).of_mke (State.mke_countMiss ..)) _ h

theorem movedFrom (h : s.Settled) (a : Coord) (order : List MoveBlock) : (s.movedFrom a order).Settled := by
  unfold State.movedFrom
  split
  · refine foldl_kept State.Settled (fun t block ht => ?_) _ h
    cases block with
    | mke => exact State.mkeMove_settled ..
    | scu => exact ht.scuMove ..
    | aou => exact ht.aouMove ..
    | rmu => exact ht.rmuMove ..
  · exact h.of_mke (by simp)

theorem decodeEncoder (h : s.Settled) (order : List MoveBlock) : (s.decodeEncoder order).Settled := by
  unfold State.decodeEncoder
  simp only
  split
  · exact h.of_mke (by simp)
  · split
    · refine movedFrom ?_ ..
      exact h.of_mke (by simp)
    · exact h.of_mke (by simp [State.reverseCount])
    · exact h.of_mke (by simp)
    · exact h.of_mke (by simp)

/-! ### Sensors -/

theorem sourceMark (h : s.Settled) (kind : MarkKind) (lanes : Lanes) (p : Coord) :
    (s.sourceMark kind lanes p).Settled := by
  have h1 : ((s.consumeNumber p).offerMark ((s.ownMarkFrame kind p lanes 0).ownOffer s.cfg.station)).1.Settled :=
    State.offerMark_settled (s := s.consumeNumber p) (h.of_retired rfl) _
  unfold State.sourceMark
  simp only
  split <;> exact h1.of_mke (by simp)

theorem trim (h : s.Settled) (d : Int) (order : List MoveBlock) : (s.trim d order).Settled := by
  unfold State.trim
  split
  · exact h
  · refine movedFrom ?_ ..
    exact h.of_mke (by simp)

theorem countFlash (h : s.Settled) (first high : State) : (s.countFlash first high).Settled :=
  h.of_mke (State.mke_countFlash ..)

theorem captureWindow (n : Fin 4) (w : Window) (order : List MoveBlock) : (s.captureWindow n w order).Settled := by
  have h1 := State.settleSpill_settled ((s.removeWindow n w).windowClosed w true)
  unfold State.captureWindow
  simp only
  generalize ((s.removeWindow n w).windowClosed w true).settleSpill = u at h1
  split
  · refine countFlash (trim ?_ ..) ..
    exact h1.of_mke (by simp)
  · exact h1.of_mke (by simp)

theorem sensorCut (h : s.Settled) (k : Coord) : (s.sensorCut k).Settled := by
  unfold State.sensorCut
  split
  · exact h.of_mke (by simp)
  · split
    · split
      · exact h.closeMoved ..
      · exact h.closeWithNew ..
    · exact h.of_mke (by simp)

theorem takeEdge (h : s.Settled) (n : Fin 4) (order : List MoveBlock) : (s.takeEdge n order).Settled := by
  have hcap : (s.capture n).Settled := h.of_mke (by simp)
  unfold State.takeEdge
  split
  · split
    · exact h.of_mke (by simp)
    · exact hcap.sourceMark ..
    · unfold State.sightEdge
      split
      · exact hcap
      · exact captureWindow ..
    · exact hcap.sensorCut _
  · exact h.of_mke (by simp)

theorem filterLevel (h : s.Settled) (n : Fin 4) (level : Level) (order : List MoveBlock) :
    (s.filterLevel n level order).Settled := by
  unfold State.filterLevel
  simp only
  split
  · exact h.of_mke (by simp)
  · split
    · refine takeEdge ?_ ..
      exact h.of_mke (by simp)
    · exact h.of_mke (by simp)

/-! ### Frames -/

theorem enterDesync (h : s.Settled) (o : NoticeOrder) {cause : State → State} (hcause : ∀ u, (cause u).mke = u.mke) :
    (s.enterDesync o cause).Settled := by
  refine h.of_retired ?_
  cases o <;> simp [State.enterDesync, inOrder, State.emptyQueue, hcause]

theorem clearSync (h : s.Settled) : s.clearSync.Settled := h.of_mke rfl

theorem followCut (h : s.Settled) (f : Coord) (source : Nat × Nat) : (s.followCut f source).Settled := by
  unfold State.followCut
  split
  · exact h.of_mke (by simp)
  · split
    · split
      · split
        · exact h.closeMoved ..
        · exact h.of_mke (by simp)
      · split
        · exact h.closeWithNew ..
        · exact h.of_mke (by simp)
    · exact h.of_mke (by simp)

theorem applyZero (h : s.Settled) (o : Nat) (z : Coord) (path : Nat) (captured : BitVec 32) :
    (s.applyZero o z path captured).Settled := by
  unfold State.applyZero
  simp only
  split
  · exact h.of_retired (by rw [State.mke_becomeActive]; rfl)
  · exact h.of_retired rfl

theorem reportGap (h : s.Settled) (o : Nat) (n : MarkNo) (missing : Nat) (l p : Coord) :
    (s.reportGap o n missing l p).Settled := by
  have h1 := foldl_kept State.Settled (f := fun u (qx : Coord × Nat) => (u.offerPlain (u.blindOffer qx.1 qx.2 false)).1)
    (fun u _ _ => State.offerPlain_settled u _) (gapChain 4 (earlier l p) (later l p - earlier l p).toNat).1 h
  unfold State.reportGap
  simp only
  split
  · refine h1.of_retired ?_
    unfold State.foldSpill
    simp only
    split <;> rfl
  · exact h1.of_mke (by simp)

theorem currentMark (h : s.Settled) (o : Nat) (m : MarkFrame) (p : Coord) (rebased : Bool) :
    (s.currentMark o m p rebased).Settled := by
  unfold State.currentMark
  simp only
  split
  · exact State.offerMark_settled (s := s.setOrigin ..) (h.of_retired (by simp)) _
  · exact State.offerMark_settled (s := s.setOrigin ..) (h.of_retired (by simp)) _
  · exact State.offerMark_settled (s := State.setOrigin _ ..)
      ((h.reportGap ..).of_retired (State.retired_setOrigin ..)) _
  · exact h.of_mke (by simp)

theorem staleMark (h : s.Settled) (o : Nat) (m : MarkFrame) (d : Nat) : (s.staleMark o m d).Settled := by
  unfold State.staleMark
  simp only
  split
  · exact h.of_mke (by simp)
  · split
    · exact h.of_retired (by simp)
    · exact h.of_mke (by simp)

theorem takeMark (h : s.Settled) (n : NoticeOrder) (o : Nat) (m : MarkFrame) : (s.takeMark n o m).Settled := by
  unfold State.takeMark
  split
  · split
    · exact h.of_mke (by simp)
    · unfold State.compareMark
      simp only
      split_ifs
      · exact h.currentMark ..
      · exact h.currentMark ..
      · exact (h.enterDesync n fun _ => by simp).clearSync
      · exact h.staleMark ..
  · exact h.of_mke (by simp)

theorem takeZero (h : s.Settled) (e : InEntry) : (s.takeZero e).Settled := by
  unfold State.takeZero
  split_ifs
  · exact h.of_mke (by simp)
  · exact h.applyZero ..
  · exact h.of_mke (by simp)

theorem takeOwnZero (h : s.Settled) (b : Loopback) : (s.takeOwnZero b).Settled := by
  unfold State.takeOwnZero
  split
  · exact h.applyZero ..
  · exact h.of_mke (by simp)

theorem takeHold (h : s.Settled) (e : InEntry) : (s.takeHold e).Settled := by
  unfold State.takeHold
  simp only
  split
  · exact h.of_mke (by simp)
  · exact h.of_mke (by simp)

theorem takeRelease (h : s.Settled) (e : InEntry) : (s.takeRelease e).Settled := by
  unfold State.takeRelease
  simp only
  split <;> exact h.of_mke (by simp)

theorem takeDismiss (h : s.Settled) (e : InEntry) : (s.takeDismiss e).Settled := by
  unfold State.takeDismiss
  simp only
  split
  · exact h.of_mke (by simp)
  · exact h.of_mke (by simp)

theorem takeClaims (h : s.Settled) (n : NoticeOrder) (e : InEntry) : (s.takeClaims n e).Settled := by
  have hlist : ∀ u : State, u.Settled → ∀ o claims, (u.takeClaimList o claims).Settled :=
    fun u hu o claims => hu.of_mke (by simp)
  unfold State.takeClaims
  simp only
  split
  · unfold State.compareClaims
    split
    · split
      · split
        · exact (hlist _ (h.enterDesync n fun _ => by simp) ..).clearSync
        · exact hlist _ h ..
      · exact hlist _ (h.of_mke (by simp)) ..
      · exact hlist _ (h.of_mke (by simp)) ..
      · exact hlist _ h ..
      · exact hlist _ h ..
    · exact hlist _ h ..
  · exact h.of_mke (by simp)

theorem takeCensus (h : s.Settled) (e : InEntry) : (s.takeCensus e).Settled := by
  unfold State.takeCensus
  split_ifs <;> exact h.of_mke (by simp)

theorem takeCutover (h : s.Settled) (e : InEntry) : (s.takeCutover e).Settled := by
  unfold State.takeCutover
  split
  · exact h.followCut ..
  · exact h.of_mke (by simp)

/-! ### Timers and the line -/

theorem refreshNow (h : s.Settled) : s.refreshNow.Settled := by
  unfold State.refreshNow
  split_ifs <;> exact h.of_mke (by simp)

theorem endJoin (h : s.Settled) (o : NoticeOrder) : (s.endJoin o).Settled := by
  unfold State.endJoin
  simp only
  split
  · exact h.of_mke (by simp)
  · exact (enterDesync (s := s.withStc _) (h.of_mke (by simp)) o fun _ => by simp).clearSync
  · exact (enterDesync (s := s.withStc _) (h.of_mke (by simp)) o fun _ => by simp).clearSync

theorem abortAttempt (h : s.Settled) (x : SendSlot) : (s.abortAttempt x).Settled := by
  have hdrop : ∀ u : State, u.Settled → (u.reportAbandoned x.frame).Settled := fun u hu => hu.of_mke (by simp)
  unfold State.abortAttempt
  simp only
  split_ifs
  · exact hdrop _ h
  · exact hdrop _ h
  · exact h.of_mke (by simp)
  · exact h.of_mke (by simp)

theorem endAttempt (h : s.Settled) (f : LineFrame) (x : SendSlot) : (s.endAttempt f x).Settled := by
  unfold State.endAttempt State.handOn
  split
  · exact h.of_mke (by simp)
  · exact h.of_mke (by simp)
  · split
    · exact h.of_retired (by simp)
    · exact h.of_mke (by simp)
  · exact h.of_mke (State.mke_dismissStale ..)
  all_goals exact h.of_mke (by simp)

theorem discardFrame (h : s.Settled) (cause run : Nat) : (s.discardFrame cause run).Settled := by
  unfold State.discardFrame
  simp only
  split <;> exact h.of_mke (by simp)

theorem receiveFrame (h : s.Settled) (f : LineFrame) (run : Nat) (o : NoticeOrder) :
    (s.receiveFrame f run o).Settled := by
  unfold State.receiveFrame
  simp only
  split
  · split
    · exact h.of_mke (by simp)
    · exact h.of_mke (by simp)
  · unfold State.offerInbound
    split
    · exact h.of_mke (by simp)
    · simp only
      split <;> exact h.of_mke (by simp)

/-! ### Requests -/

theorem warmReset (s : State) : s.warmReset.Settled := by
  have h0 : (((s.withMke s.mke.warm).withScu s.scu.warm).withAou s.aou.idled).mergeBack.Settled := by
    show _ = _
    rw [State.mke_mergeBack]
    rfl
  have hend : ∀ (u : State) k o n v p, u.Settled →
      ((u.notice k o n v).withRmu { (u.notice k o n v).rmu with pendingRead := p }).Settled :=
    fun u _ _ _ _ _ hu => hu.of_mke (by simp)
  have h1 : s.warmBlocks.Settled := by
    unfold State.warmBlocks State.interruptSet
    simp only
    split
    · exact h0
    · refine hend _ _ _ _ _ _ ?_
      split
      · split
        · exact State.cutPulse_settled (h0.of_mke (by simp)) _
        · exact h0.of_mke (by simp)
      · exact h0.of_mke (by simp)
  rw [State.warmReset_eq]
  exact h1.of_mke (by simp [State.warmLine])

theorem answer (h : s.Settled) (r : Request) (status : Status) (payload : List Byte) :
    (s.answer r status payload).Settled := h.of_mke (by simp)

theorem useFree (h : s.Settled) (p : Placement) : (s.useFree p).Settled := by
  cases p <;> exact h

theorem takePost (h : s.Settled) (p : List Byte) : (s.takePost p).Settled := by
  unfold State.takePost
  split
  · exact h.of_mke (by simp)
  · unfold State.acceptPost
    simp only
    refine answer (useFree (State.offerMark_settled ?_ _) _) ..
    exact h.of_retired (by rw [State.mke_withLbi, State.retired_consumeNumber])

theorem takeReadRoll (h : s.Settled) (p : List Byte) : (s.takeReadRoll p).Settled := by
  unfold State.takeReadRoll
  simp only
  split_ifs
  · exact h.of_mke (by simp)
  · exact h.of_mke (by simp)
  · split
    · exact h.of_mke (by simp)
    · split <;> exact h.of_mke (by simp)

theorem takeCutoverNow (h : s.Settled) (p : List Byte) : (s.takeCutoverNow p).Settled := by
  unfold State.takeCutoverNow
  split
  · exact h.of_mke (by simp)
  · split_ifs
    · exact h.of_mke (by simp)
    · exact h.of_mke (by simp)
    · exact h.of_mke (by simp)
    · exact h.closeWithNew ..

end State.Settled

/-- No effect leaves a spill entry owed. -/
theorem Effect.settled {s u : State} {c : Instr} (h : Effect s c u) (hs : s.Settled) : u.Settled := by
  cases h with
  | encoderCount line order =>
    refine State.Settled.decodeEncoder ?_ order
    exact hs.of_mke (by simp)
  | encoderError =>
    refine State.Settled.decodeEncoder ?_ []
    exact hs.of_mke (by simp)
  | sensorEdge n level order =>
    refine State.Settled.filterLevel ?_ n level order
    exact hs.of_mke (by simp)
  | msPulseEnd ch => exact State.settleSpill_settled _
  | refreshExpiry => exact hs.refreshNow
  | joinDone o => exact hs.endJoin o
  | frameAborted x => exact hs.abortAttempt x
  | ownFrameEnd f x => exact hs.endAttempt f x
  | receiveError bits cause => exact hs.discardFrame ..
  | validFrameEnd bits o f => exact hs.receiveFrame ..
  | markFrame o e => exact State.Settled.takeMark (s := s.dequeued) hs ..
  | zeroFrame e => exact State.Settled.takeZero (s := s.dequeued) hs e
  | zeroLoopback b => exact State.Settled.takeOwnZero (s := s.looped) hs b
  | holdFrame e => exact State.Settled.takeHold (s := s.dequeued) hs e
  | releaseFrame e => exact State.Settled.takeRelease (s := s.dequeued) hs e
  | dismissFrame e => exact State.Settled.takeDismiss (s := s.dequeued) hs e
  | claimsFrame o e => exact State.Settled.takeClaims (s := s.dequeued) hs o e
  | censusFrame e => exact State.Settled.takeCensus (s := s.dequeued) hs e
  | cutoverFrame e => exact State.Settled.takeCutover (s := s.dequeued) hs e
  | configure p =>
    unfold State.takeConfigure
    split
    · exact hs.of_mke (by simp)
    · exact hs.of_mke (by simp [State.startBlocks])
  | restart p => exact (State.Settled.warmReset s).of_mke (by simp [State.takeRestart])
  | takeNotices p =>
    unfold State.takeNoticesNow
    simp only
    split
    · exact hs.of_mke (by simp)
    · exact hs.of_mke (by simp)
  | readMarks p => unfold State.takeReadMarks; split <;> exact hs.of_mke (by simp)
  | postMark p => exact hs.takePost p
  | zero p => unfold State.takeZeroRequest; split_ifs <;> exact hs.of_mke (by simp)
  | readHolds p => unfold State.takeReadHolds; split <;> exact hs.of_mke (by simp)
  | hold p => unfold State.takeHoldRequest; simp only; split_ifs <;> exact hs.of_mke (by simp)
  | release p =>
    unfold State.takeReleaseRequest
    simp only
    split_ifs
    on_goal 5 => exact hs.of_mke (by simp)
    all_goals exact hs.of_mke (by simp)
  | dismiss p => unfold State.takeDismissRequest; simp only; split_ifs <;> exact hs.of_mke (by simp)
  | cutoverAt p =>
    unfold State.takeCutoverAt
    simp only
    split
    · exact hs.of_mke (by simp)
    · split_ifs <;> exact hs.of_mke (by simp [State.answerCutover])
  | cutoverNow p => exact hs.takeCutoverNow p
  | cancelCutover p =>
    unfold State.takeCancel
    split
    · split
      · exact hs.of_mke (by simp)
      · exact hs.of_mke (by simp)
    · exact hs.of_mke (by simp)
  | readRoll p => exact hs.takeReadRoll p
  | freeRoll p => unfold State.takeFreeRoll; simp only; split_ifs <;> exact hs.of_mke (by simp)
  | coldReset => rfl
  | resetnHeldLow | timebaseAdvance | claimStale | quietExpiry | discardExpiry | lineIdle | yieldGapEnd
    | startBitRead | arbitrationLost | attemptStart | cutoverLoopback | lcsRise | localTransaction | answered =>
    exact hs.of_mke (by simp [State.makeStale, State.beginAttempt, State.looped, State.transact])

end Sys2Proof.Machine
end

section
/-! Every step keeps the invariants: what `Keeps` says of a command, of CONFIGURE and of the cold reset. -/

namespace Sys2Proof.Machine

/-! ### A command but for a cold reset and CONFIGURE -/

theorem Keeps.driven {s t : State} (h : Keeps s t) : Keeps s t.driven := by
  unfold State.driven
  split <;> refine h.withPins ?_ ?_ <;> exact id

theorem Keeps.withInputs {s : State} {enca encb : Level} {sensors : Four Level}
    (still : s.live = true → s.configured = true → s.withInputs enca encb sensors = s) :
    Keeps s (s.withInputs enca encb sensors) := by
  refine (Keeps.refl s).withPins ?_ ?_
  · exact id
  · intro hl hlive hconf
    have hpins := congrArg State.pins (still hlive hconf)
    rw [State.lcu_withPins]
    exact (hl hlive hconf).trans (by rw [← hpins]; rfl)

theorem exec_keeps {c : Instr} {s t : State} (h : exec c s = .next t) (hcold : ∀ lcs, c ≠ .coldReset lcs)
    (hconf : c ≠ .configure) : Keeps s t := by
  rcases exec_cases h with ⟨_, _, _, rfl, still⟩ | ⟨u, hu, rfl⟩
  · exact .withInputs still
  · exact (hu.keeps hcold hconf).driven

theorem exec_settled {c : Instr} {s t : State} (h : exec c s = .next t) (hs : s.Settled) : t.Settled := by
  rcases exec_cases h with ⟨_, _, _, rfl, -⟩ | ⟨u, hu, rfl⟩
  · exact hs
  · exact (hu.settled hs).of_mke (State.mke_driven u)

/-! ### CONFIGURE -/

section OpenFirstSet

variable (s : State)

@[simp] theorem State.lcu_openFirstSet : s.openFirstSet.lcu = s.lcu := by
  unfold State.openFirstSet; simp only; split <;> simp
@[simp] theorem State.aou_openFirstSet : s.openFirstSet.aou = s.aou := by
  unfold State.openFirstSet; simp only; split <;> simp
@[simp] theorem State.scu_openFirstSet : s.openFirstSet.scu = s.scu := by
  unfold State.openFirstSet; simp only; split <;> simp
@[simp] theorem State.htu_openFirstSet : s.openFirstSet.htu = s.htu := by
  unfold State.openFirstSet; simp only; split <;> simp
@[simp] theorem State.lbi_openFirstSet : s.openFirstSet.lbi = s.lbi := by
  unfold State.openFirstSet; simp only; split <;> simp
@[simp] theorem State.stc_openFirstSet : s.openFirstSet.stc = s.stc := by
  unfold State.openFirstSet; simp only; split <;> simp
@[simp] theorem State.lpt_openFirstSet : s.openFirstSet.lpt = s.lpt := by
  unfold State.openFirstSet; simp only; split <;> simp
@[simp] theorem State.pins_openFirstSet : s.openFirstSet.pins = s.pins := by
  unfold State.openFirstSet; simp only; split <;> simp
@[simp] theorem State.pending_openFirstSet : s.openFirstSet.pending = s.pending := by
  unfold State.openFirstSet; simp only; split <;> simp

end OpenFirstSet

theorem RmuOk.openFirstSet {s : State} (h : RmuOk s.rmu) : RmuOk s.openFirstSet.rmu := by
  unfold State.openFirstSet
  simp only
  split
  · exact h.useNumber.setCurrent (State.newSet_ok h 0)
  · exact h

/-- The blocks as CONFIGURE starts them, in JOINING, before its claim and its frames (R168, R169). -/
def State.started (s : State) (c : Settings) : State :=
  let s1 := s.withStc { s.stc with config := some c, locked := true }
  let s2 := s1.withLcu { s1.lcu with levels := some (s1.pins.enca, s1.pins.encb) }
  let s3 := s2.withScu { s2.scu with filtered := s2.pins.sensors.map some }
  let s4 := (s3.withAou (s3.aou.released c.outputs)).openFirstSet
  let s5 := s4.withLbi { s4.lbi with mode := .ready, line := .waitIdle, recessiveRun := 0 }
  let s6 := s5.withStc { s5.stc with station := .joining, join := some (s5.ahead s5.cfg.joinInterval) }
  s6.withLcu { s6.lcu with joinSync := .adopting }

namespace State

variable (s : State) (c : Settings)

@[simp] theorem lcu_started : (s.started c).lcu =
    { s.lcu with levels := some (s.pins.enca, s.pins.encb), joinSync := .adopting } := by
  simp [started]
@[simp] theorem mke_started : (s.started c).mke = s.mke := by simp [started]
@[simp] theorem aou_started : (s.started c).aou = s.aou.released c.outputs := by simp [started]
@[simp] theorem scu_started : (s.started c).scu = { s.scu with filtered := s.pins.sensors.map some } := by
  simp [started]
@[simp] theorem htu_started : (s.started c).htu = s.htu := by simp [started]
@[simp] theorem lbi_started : (s.started c).lbi =
    { s.lbi with mode := .ready, line := .waitIdle, recessiveRun := 0 } := by
  simp [started]
@[simp] theorem stc_started : (s.started c).stc = { s.stc with
    station := .joining, config := some c, locked := true, join := some (s.ahead c.joinInterval) } := by
  simp [started, ahead, cfg]
@[simp] theorem lpt_started : (s.started c).lpt = s.lpt := by simp [started]
@[simp] theorem pins_started : (s.started c).pins = s.pins := by simp [started]
@[simp] theorem pending_started : (s.started c).pending = s.pending := by simp [started]
@[simp] theorem configured_started : (s.started c).configured = true := by simp [configured]
@[simp] theorem cfg_started : (s.started c).cfg = c := by simp [cfg]

theorem startBlocks_eq : s.startBlocks c =
    (((s.started c).request .census).takeDesyncClaim).request .claims := rfl

end State

theorem keeps_startBlocks (s : State) (c : Settings) : Keeps (s.started c) (s.startBlocks c) := by
  rw [State.startBlocks_eq]
  exact ((((Keeps.refl _).request _).takeDesyncClaim (s.configured_started c))).request _

/-- CONFIGURE is taken in UNCONFIGURED alone. -/
theorem Requested.unconfigured {s : State} {p : List Byte} (h : Requested s .configure p) :
    s.stc.station = .unconfigured := by
  have := h.admitted
  revert this
  cases s.stc.station <;> decide

theorem State.configured_eq_false {s : State} : s.configured = false ↔ s.stc.station = .unconfigured := by
  simp [State.configured]

/-- A CONFIGURE either answers its first failing field, or starts the blocks. -/
theorem takeConfigure_cases (s : State) (p : List Byte) :
    (∃ i, firstFailing p = some i ∧ s.takeConfigure p = s.answer .configure .range (bytesBE 2 i)) ∨
    (firstFailing p = none ∧
      s.takeConfigure p = (s.startBlocks (parseSettings p)).answer .configure .ok) := by
  unfold State.takeConfigure
  split
  · next i hi => exact .inl ⟨i, hi, rfl⟩
  · next hn => exact .inr ⟨hn, rfl⟩

/-- No field fails exactly where every check passes. -/
theorem firstFailing_eq_none_iff {p : List Byte} : firstFailing p = none ↔ ∀ c ∈ fieldChecks p, c.2 = true := by
  simp [firstFailing]

/-- The general fields of an accepted block that the invariants rest on (R167). -/
theorem general_of_accepted {p : List Byte} (h : firstFailing p = none) :
    (1 ≤ (parseSettings p).station ∧ (parseSettings p).station ≤ 24) ∧ 1 ≤ (parseSettings p).ratioD := by
  have hall := firstFailing_eq_none_iff.mp h
  have hgeneral : ∀ c ∈ generalChecks p, c.2 = true := fun c hc =>
    hall c (by simp only [fieldChecks, List.mem_append]; exact .inl (.inl (.inl hc)))
  have hstation := hgeneral (1, within 1 24 (byteAt p 0)) (by simp [generalChecks])
  have hratio := hgeneral (5, within 1 65535 (field p 7 2)) (by simp [generalChecks])
  exact ⟨within_iff.mp hstation, (within_iff.mp hratio).1⟩

/-! ### Invariants of every step -/

/-- A predicate is kept by every command where what `Keeps` says keeps it, a cold reset gives it, and CONFIGURE's start
of the blocks keeps it. -/
structure Invariant (P : State → Prop) : Prop where
  keeps : ∀ s t, Keeps s t → (s.Settled → t.Settled) → P s → P t
  cold : ∀ (s : State) lcs, P (s.coldReset lcs)
  started : ∀ s p, s.stc.station = .unconfigured → firstFailing p = none → P s → P (s.started (parseSettings p))
  pending : ∀ s rest, P s → P (s.withPending rest)

namespace Invariant

variable {P : State → Prop} (I : Invariant P)

include I

theorem exec {c : Instr} {s t : State} (hs : P s) (h : exec c s = .next t) : P t := by
  have hdriven : ∀ {v w}, Keeps v w → (v.Settled → w.Settled) → P v → P w.driven := fun hk hset hv =>
    I.keeps _ _ hk.driven (fun ok => (hset ok).of_mke (State.mke_driven _)) hv
  by_cases hcold : ∃ lcs, c = .coldReset lcs
  · obtain ⟨lcs, rfl⟩ := hcold
    rw [exec_coldReset] at h
    cases h
    exact hdriven (.refl _) id (I.cold s lcs)
  by_cases hconf : c = .configure
  · subst hconf
    rcases exec_cases h with ⟨_, _, _, rfl, still⟩ | ⟨u, hu, rfl⟩
    · exact I.keeps _ _ (.withInputs still) id hs
    · cases hu with
      | answered c code status payload live =>
        exact hdriven ((Keeps.refl s).answerCode ..) (fun ok => ok.of_mke (by simp)) hs
      | configure p req =>
        rcases takeConfigure_cases s p with ⟨i, -, e⟩ | ⟨hnone, e⟩
        · rw [e]
          exact hdriven ((Keeps.refl s).answer ..) (fun ok => ok.of_mke (by simp)) hs
        · have hset := (Effect.configure p req).settled
          rw [e] at hset ⊢
          exact hdriven ((keeps_startBlocks s _).answer ..) (fun ok => hset (ok.of_mke (by simp)))
            (I.started s p req.unconfigured hnone hs)
  · exact I.keeps _ _ (exec_keeps h (fun lcs e => hcold ⟨lcs, e⟩) hconf) (exec_settled h) hs

theorem step {s t : State} (hs : P s) (h : step s = .next t) : P t := by
  unfold Machine.step at h
  split at h
  · cases h
    exact hs
  · exact I.exec (I.pending _ _ hs) h

end Invariant

end Sys2Proof.Machine
end

section
/-! The invariants: pins and edges, bounds, hold table, outbound queue. -/

namespace Sys2Proof.Machine

/-! ### The encoder levels and the edges -/

theorem levelsFollowPins_invariant : Invariant LevelsFollowPins where
  keeps _ _ h _ := h.levels
  cold _ _ := fun _ h => nomatch h
  started s p _ _ _ := fun _ _ => by simp
  pending _ _ := id

theorem State.outputLevel_of_configured {s : State} (hc : s.configured = true) (ch : Fin 4) :
    s.outputLevel ch =
      if (s.aou.channels.get ch).state.active then (s.cfg.outputs.get ch).idle.flip else (s.cfg.outputs.get ch).idle :=
  if_pos hc

theorem State.outputLevel_of_unconfigured {s : State} (hc : s.configured = false) (ch : Fin 4) :
    s.outputLevel ch = .low := if_neg (by simp [hc])

/-- In a configured part, an output pin is high where its edges are odd in number exactly where edges and active state
together have the parity of its idle level. -/
theorem State.edge_parity {s : State} (hc : s.configured = true) (ch : Fin 4) :
    (s.outputLevel ch = .high ↔ s.aou.edges.get ch % 2 = 1) ↔
      (s.aou.edges.get ch + (s.aou.channels.get ch).state.active.toNat) % 2 =
        if (s.cfg.outputs.get ch).idle = .high then 1 else 0 := by
  rw [State.outputLevel_of_configured hc]
  cases (s.aou.channels.get ch).state.active <;> cases (s.cfg.outputs.get ch).idle <;> simp [Level.flip] <;> omega

theorem Aou.released_edges (a : Aou) (outputs : Four OutputSettings) (ch : Fin 4) :
    (a.released outputs).edges.get ch =
      if (outputs.get ch).idle = .high then a.edges.get ch + 1 else a.edges.get ch := by
  have h : ∀ i : Fin 4, (match (outputs.get i).idle with
      | .high => a.edges.get i + 1
      | .low => a.edges.get i) = if (outputs.get i).idle = .high then a.edges.get i + 1 else a.edges.get i := by
    intro i
    cases (outputs.get i).idle <;> rfl
  match ch with
  | 0 => exact h 0
  | 1 => exact h 1
  | 2 => exact h 2
  | 3 => exact h 3

theorem edgesFollowPins_reset : EdgesFollowPins State.reset := by
  unfold EdgesFollowPins; decide

theorem edgesFollowPins_invariant : Invariant EdgesFollowPins where
  keeps s t h _ hs hlive ch := by
    have hsch := hs (h.live hlive) ch
    cases hc : s.configured with
    | true =>
      have hct := h.configured.trans hc
      refine ⟨(State.edge_parity hct ch).mpr ?_, fun hu => by rw [hct] at hu; cases hu⟩
      rw [h.aou.edges, h.cfg]
      exact (State.edge_parity hc ch).mp hsch.1
    | false =>
      have hct := h.configured.trans hc
      obtain ⟨haou, -⟩ := h.waits hc
      rw [State.outputLevel_of_unconfigured hct, haou]
      rw [State.outputLevel_of_unconfigured hc] at hsch
      exact ⟨hsch.1, fun _ => hsch.2 hc⟩
  cold _ _ _ ch := edgesFollowPins_reset rfl ch
  started s p hun _ hs hlive ch := by
    have hu := State.configured_eq_false.mpr hun
    have hlive' : s.live = true := State.live_iff.mpr (by simpa [State.live] using hlive)
    obtain ⟨heven, hidle⟩ := hs hlive' ch
    rw [State.outputLevel_of_unconfigured hu] at heven
    refine ⟨(State.edge_parity (State.configured_started ..) ch).mpr ?_, fun h => by simp at h⟩
    have hch : ((s.started (parseSettings p)).aou.channels.get ch).state = .idle := by
      rw [State.aou_started]
      exact hidle hu
    rw [hch, State.aou_started, Aou.released_edges, State.cfg_started]
    simp only [ChannelState.active_idle, Bool.toNat_false, Nat.add_zero]
    have : ¬ s.aou.edges.get ch % 2 = 1 := fun h => nomatch heven.mpr h
    split <;> omega
  pending _ _ := id

theorem State.ldoDriven_driven (s : State) : s.driven.pins.ldoDriven = s.ldoOn := by
  unfold State.driven; split <;> rfl

/-- Settles O7: driven pins stay driven, and what `Keeps` says of levels and edges. -/
theorem stepKeepsPins : Obligations.StepKeepsPins := by
  refine ⟨fun s t hs hstep => ?_, fun s t => levelsFollowPins_invariant.step, fun s t => edgesFollowPins_invariant.step⟩
  have ht := step_pinsDriven hs hstep
  refine ⟨ht, ?_⟩
  have hldo := t.ldoDriven_driven
  rw [show t.driven = t from ht] at hldo
  simp [hldo, State.ldoOn]

/-! ### Bounds -/

theorem bounded_reset : Bounded State.reset where
  lcu := ⟨by decide, by decide, fun _ => rfl⟩
  reverseRun := by decide
  mke := MkeOk.empty rfl rfl
  settled := rfl
  aou := by unfold AouOk; decide
  scu := Nat.zero_le _
  tail := by decide
  rmu := ⟨by decide, by decide, fun _ h => (nomatch h), fun _ h => (nomatch h), fun _ h => (nomatch h)⟩
  lbi := ⟨by decide, by decide, fun _ h => (nomatch h)⟩
  counters := by constructor <;> decide
  lpt := ⟨by decide, by decide⟩

theorem bounded_invariant : Invariant Bounded where
  keeps s t h hset hs := ⟨h.lcu hs.lcu, h.reverseRun hs.reverseRun, h.mke hs.mke, hset hs.settled, h.aou.ok hs.aou,
    h.scu hs.scu, h.tail hs.tail, h.rmu hs.rmu, h.lbi hs.lbi, h.counters hs.counters, h.lpt hs.lpt⟩
  cold s lcs :=
    have b := bounded_reset
    ⟨b.lcu.of_eq rfl rfl rfl, b.reverseRun, MkeOk.empty rfl rfl, rfl, b.aou, b.scu, b.tail, b.rmu, b.lbi, b.counters,
      b.lpt⟩
  started s p hun hnone hs := by
    obtain ⟨-, hratio⟩ := general_of_accepted hnone
    have hrem := hs.lcu.unconfigured (State.configured_eq_false.mpr hun)
    refine ⟨⟨?_, ?_, ?_⟩, ?_, ?_, ?_, ?_, ?_, ?_, ?_, ?_, ?_, ?_⟩
    · rwa [State.cfg_started]
    · rw [State.cfg_started, State.lcu_started]
      exact hrem ▸ hratio
    · simp
    · rw [State.lcu_started]; exact hs.reverseRun
    · rw [State.mke_started]; exact hs.mke
    · rw [State.mke_started]; exact hs.settled
    · rw [State.aou_started]; exact hs.aou
    · rw [State.scu_started]; exact hs.scu
    · rw [State.htu_started]; exact hs.tail
    · exact RmuOk.openFirstSet (s := State.withAou _ _) hs.rmu
    · rw [State.lbi_started]; exact ⟨hs.lbi.inbound, Nat.zero_le _, hs.lbi.failed⟩
    · rw [State.stc_started]; exact hs.counters
    · rw [State.lpt_started]; exact hs.lpt
  pending s rest hs := ⟨hs.lcu.of_eq rfl rfl rfl, hs.reverseRun, hs.mke, hs.settled, hs.aou, hs.scu, hs.tail, hs.rmu,
    hs.lbi, hs.counters, hs.lpt⟩

/-- Settles O8. -/
theorem stepKeepsBounds : Obligations.StepKeepsBounds := fun _ _ => bounded_invariant.step

/-! ### The hold table and the outbound queue -/

theorem HoldsOk.of_empty {s : State} (h : s.htu.table = [])
    (hc : s.configured = true → 1 ≤ s.cfg.station ∧ s.cfg.station ≤ 24) : HoldsOk s :=
  ⟨⟨by simp [h], by simp [h]⟩, by simp [h], by simp [h], hc, fun _ => h, by simp [h]⟩

theorem holdsOk_invariant : Invariant HoldsOk where
  keeps _ _ h _ := h.holds
  cold _ _ := HoldsOk.of_empty rfl (fun h => nomatch h)
  started s p hun hnone hs := by
    obtain ⟨hstation, -⟩ := general_of_accepted hnone
    have hempty := hs.unconfigured (State.configured_eq_false.mpr hun)
    exact HoldsOk.of_empty (by rw [State.htu_started, hempty]) (fun _ => by rwa [State.cfg_started])
  pending _ _ hs := hs.of_eq rfl rfl rfl

/-- Settles O9. -/
theorem stepKeepsHoldTable : Obligations.StepKeepsHoldTable := fun _ _ => holdsOk_invariant.step

theorem outboundOk_invariant : Invariant (fun s => OutboundOk s.lbi) where
  keeps _ _ h _ := h.outbound
  cold _ _ := OutboundOk.empty rfl rfl rfl
  started s p _ _ hs := by
    rw [State.lbi_started]
    exact hs.of_eq rfl rfl rfl
  pending _ _ := id

/-- Settles O10. -/
theorem stepKeepsOutboundQueue : Obligations.StepKeepsOutboundQueue := fun _ _ => outboundOk_invariant.step

/-! ### The state after reset -/

/-- The state after reset is that of a cold reset with LCS high. -/
theorem coldReset_reset : State.reset.coldReset .high = State.reset := rfl

/-- Settles O3: the reset state is one a cold reset gives. -/
theorem resetStateIsGood : Obligations.ResetStateIsGood :=
  ⟨by unfold PinsDriven; decide, bounded_reset, holdsOk_invariant.cold State.reset .high,
    outboundOk_invariant.cold State.reset .high, levelsFollowPins_invariant.cold State.reset .high,
    edgesFollowPins_reset⟩

end Sys2Proof.Machine
end

section
/-! What a command never does: it stops nothing, acts on nothing in reset, and takes nothing back. -/

namespace Sys2Proof.Machine

/-- Settles O1: the two rows of the definition. -/
theorem stepRunsTheCommandAtTheFront : Obligations.StepRunsTheCommandAtTheFront := by
  refine fun s => ⟨fun c rest h => ?_, fun h => ?_⟩ <;> unfold step <;> rw [h]

theorem pending_invariant (l : List Instr) {c : Instr} {s t : State} (hs : s.pending = l) (h : exec c s = .next t) :
    t.pending = l := by
  rcases exec_cases h with ⟨_, _, _, rfl, -⟩ | ⟨u, hu, rfl⟩
  · exact hs
  · rw [State.pending_driven]
    by_cases hcold : ∃ lcs, c = .coldReset lcs
    · obtain ⟨lcs, rfl⟩ := hcold
      cases hu <;> exact hs
    by_cases hconf : c = .configure
    · subst hconf
      cases hu with
      | answered => exact hs
      | configure p req =>
        rcases takeConfigure_cases s p with ⟨i, -, e⟩ | ⟨-, e⟩
        · rw [e]; exact hs
        · rw [e, State.pending_answer, (keeps_startBlocks s _).pending, State.pending_started, hs]
    · rw [(hu.keeps (fun lcs e => hcold ⟨lcs, e⟩) hconf).pending, hs]

/-- Settles O2: a command always answers, and no effect touches the commands waiting. -/
theorem everyCommandAnswersANextState : Obligations.EveryCommandAnswersANextState := by
  intro c s
  obtain ⟨t, ht⟩ := exec_answers c s
  exact ⟨t, ht, pending_invariant _ rfl ht⟩

/-- Settles O5: the blocks have their cold values, among them no notice, no hold and no channel that drives a pin. -/
theorem coldResetRestoresEveryBlock : Obligations.ColdResetRestoresEveryBlock := by
  intro lcs s
  refine ⟨_, exec_coldReset s lcs, ?_⟩
  have hlive : (s.coldReset lcs).live = true := rfl
  have hdriven : (s.coldReset lcs).driven = (s.coldReset lcs).withPins { (s.coldReset lcs).pins with
      outputs := .all .low, ltx := .recessive, runok := .low, attn := .low, ldoDriven := decide (lcs = .low) } := by
    unfold State.driven
    rw [if_pos hlive]
    cases lcs <;> rfl
  rw [hdriven]
  refine ⟨rfl, rfl, rfl, rfl, rfl, rfl, rfl, rfl, rfl, ?_, ?_, rfl, rfl, rfl, rfl, rfl, rfl, rfl, rfl, ?_, rfl, rfl,
    rfl, rfl, rfl⟩
  · intro ch
    match ch with
    | 0 | 1 | 2 | 3 => exact ⟨rfl, rfl⟩
  · intro n
    match n with
    | 0 | 1 | 2 | 3 => exact ⟨rfl, rfl, rfl⟩
  · intro ch
    match ch with
    | 0 | 1 | 2 | 3 => rfl

/-- Settles O6: RESETN low drives the outputs low; after it every effect but a cold reset's wants RESETN high, and what
is left are the input pins. -/
theorem heldInResetNothingActs : Obligations.HeldInResetNothingActs := by
  constructor
  · intro s
    rfl
  · intro c s t hlow hcold hheld h
    rcases exec_cases h with ⟨enca, encb, sensors, rfl, -⟩ | ⟨u, hu, rfl⟩
    · rfl
    · have := State.live_iff.mp (hu.live hcold hheld)
      rw [hlow] at this
      cases this

/-- Settles O14: `Keeps` for every command but CONFIGURE, and the start of the blocks for that one. -/
theorem onlyAColdResetTakesBack : Obligations.OnlyAColdResetTakesBack := by
  intro c s t hcold h
  have hkeeps : ∀ {v : State}, v.stc.counters = s.stc.counters → Keeps v t →
      CountersRise s.stc.counters t.stc.counters ∧ (CountersOk s.stc.counters → CountersOk t.stc.counters) :=
    fun e k => ⟨e ▸ k.rise, e ▸ k.counters⟩
  have hsame : Keeps s t → s.stc.station ≠ .unconfigured →
      t.stc.config = s.stc.config ∧ t.stc.locked = s.stc.locked ∧ t.stc.station ≠ .unconfigured := fun k hs =>
    ⟨k.config, k.locked, fun e => by
      have := k.configured.trans (State.configured_of_station hs)
      rw [State.configured_eq_false.mpr e] at this
      cases this⟩
  by_cases hconf : c = .configure
  · subst hconf
    have hkept : Keeps s t ∨ (s.stc.station = .unconfigured ∧ ∃ p, Keeps (s.started p) t) := by
      rcases exec_cases h with ⟨_, _, _, rfl, still⟩ | ⟨u, hu, rfl⟩
      · exact .inl (.withInputs still)
      · cases hu with
        | answered => exact .inl (Keeps.refl s |>.answerCode ..).driven
        | configure p req =>
          rcases takeConfigure_cases s p with ⟨i, -, e⟩ | ⟨-, e⟩
          · exact .inl (e ▸ ((Keeps.refl s).answer ..).driven)
          · exact .inr ⟨req.unconfigured, _, e ▸ ((keeps_startBlocks s _).answer ..).driven⟩
    rcases hkept with k | ⟨hun, p, k⟩
    · obtain ⟨hrise, hok⟩ := hkeeps rfl k
      exact ⟨hrise, hok, hsame k, fun _ hne => absurd rfl hne⟩
    · obtain ⟨hrise, hok⟩ := hkeeps (by simp) k
      exact ⟨hrise, hok, fun hne => absurd hun hne, fun _ hne => absurd rfl hne⟩
  · have k := exec_keeps h hcold hconf
    obtain ⟨hrise, hok⟩ := hkeeps rfl k
    exact ⟨hrise, hok, hsame k, fun hun _ => (k.waits (State.configured_eq_false.mpr hun)).2⟩

end Sys2Proof.Machine
end

section
/-! A SILENT station stays SILENT and MUTE (R162, R171). -/

namespace Sys2Proof.Machine

/-- The station is SILENT, its Line Bus Interface MUTE with nothing to send. -/
structure State.Silent (s : State) : Prop where
  station : s.stc.station = .silent
  mode : s.lbi.mode = .mute
  attempt : s.lbi.attempt = none
  slot : s.lbi.slot = none
  urgent : s.lbi.urgent = []
  normal : s.lbi.normal = []
  deferred : s.lbi.deferred = []

namespace State.Silent

variable {s t : State}

theorem of_eq (h : s.Silent) (hst : t.stc.station = s.stc.station) (hl : t.lbi = s.lbi) : t.Silent :=
  ⟨hst ▸ h.station, hl ▸ h.mode, hl ▸ h.attempt, hl ▸ h.slot, hl ▸ h.urgent, hl ▸ h.normal, hl ▸ h.deferred⟩

/-- The Line Bus Interface changes what is not for sending. -/
theorem withLbi (h : s.Silent) {x : Lbi} (hm : x.mode = s.lbi.mode) (ha : x.attempt = s.lbi.attempt)
    (hs : x.slot = s.lbi.slot) (hu : x.urgent = s.lbi.urgent) (hn : x.normal = s.lbi.normal)
    (hd : x.deferred = s.lbi.deferred) : (s.withLbi x).Silent :=
  ⟨h.station, hm.trans h.mode, ha.trans h.attempt, hs.trans h.slot, hu.trans h.urgent, hn.trans h.normal,
    hd.trans h.deferred⟩

theorem not_accepts (h : s.Silent) : s.lbi.accepts = false := by simp [Lbi.accepts, h.mode]

theorem not_active (h : s.Silent) : s.isActive = false := by simp [State.isActive, h.station]

theorem not_onLine (h : s.Silent) : s.onLine = false := by simp [State.onLine, h.station]

theorem queueClaim (h : s.Silent) (n : Nat) (f : OutFrame) : s.lbi.queueClaim n f = s.lbi := by
  simp [Lbi.queueClaim, h.not_accepts]

theorem queueNormal (h : s.Silent) (f : OutFrame) : s.lbi.queueNormal f = s.lbi := by
  simp [Lbi.queueNormal, h.not_accepts]

theorem releaseClaim (h : s.Silent) (n : Nat) : (s.releaseClaim n).Silent := by
  unfold State.releaseClaim
  split
  · exact h.of_eq rfl (h.queueClaim ..)
  · exact h

/-- A request the SILENT state refuses is not taken. -/
theorem not_requested (h : s.Silent) {r : Request} {p : List Byte} (hr : r.refusal .silent ≠ none) :
    ¬ Requested s r p := fun req => hr (h.station ▸ req.admitted)

end State.Silent

/-- Marks, actions, pulses, windows and closes leave a SILENT station so: what they queue is not accepted. -/
theorem silent_kept : KeptByParts False State.Silent where
  place _ _ h := h.of_eq rfl rfl
  count _ _ h := h.of_eq rfl rfl
  fault _ _ _ h := h.of_eq rfl rfl
  mke _ _ _ h := h.of_eq rfl rfl
  aou _ _ _ h := h.of_eq rfl rfl
  scu _ _ _ h := h.of_eq rfl rfl
  rmuOk g := g.elim
  rmu _ _ _ _ h := h.of_eq rfl rfl
  claim _ _ _ _ _ h := h.of_eq rfl (h.queueClaim ..)
  cutover _ _ _ _ h := h.of_eq rfl (h.queueNormal ..)

namespace State.Silent

variable {s : State}

theorem noticeReverse (h : s.Silent) : s.noticeReverse.Silent := by
  unfold State.noticeReverse
  split
  · exact h.of_eq rfl rfl
  · exact h

theorem reverseCount (h : s.Silent) : s.reverseCount.Silent := by
  unfold State.reverseCount
  refine noticeReverse ?_
  exact h.of_eq rfl rfl

theorem encoderFault (h : s.Silent) : s.encoderFault.Silent := by
  unfold State.encoderFault State.noticeEncoder
  split <;> exact h.of_eq rfl rfl

theorem decodeEncoder (h : s.Silent) (order : List MoveBlock) : (s.decodeEncoder order).Silent := by
  unfold State.decodeEncoder
  simp only
  split
  · exact h.of_eq rfl rfl
  · split
    · refine State.movedFrom_kept silent_kept ?_ ..
      exact h.of_eq rfl rfl
    · refine reverseCount ?_
      exact h.of_eq rfl rfl
    · refine encoderFault ?_
      exact h.of_eq rfl rfl
    · exact h.of_eq rfl rfl

theorem filterLevel (h : s.Silent) (n : Fin 4) (level : Level) (order : List MoveBlock) :
    (s.filterLevel n level order).Silent := by
  have hnot : ∀ t : State, t.Silent → (t.takeEdge n order).Silent := fun t ht => by
    unfold State.takeEdge
    simp [ht.not_active, ht]
  have h1 : (s.withScu { s.scu with filtered := s.scu.filtered.set n (some level) }).Silent := h.of_eq rfl rfl
  unfold State.filterLevel
  simp only
  split
  · exact h1
  · split
    · exact hnot _ h1
    · exact h1

theorem offerInbound (h : s.Silent) (f : LineFrame) : (s.offerInbound f).Silent := by
  unfold State.offerInbound
  split
  · exact h.withLbi rfl rfl rfl rfl rfl rfl
  · simp only
    split
    · exact h.of_eq rfl rfl
    · exact ⟨h.station, h.mode, h.attempt, h.slot, h.urgent, h.normal, h.deferred⟩

theorem receiveFrame (h : s.Silent) (f : LineFrame) (run : Nat) (o : NoticeOrder) :
    (s.receiveFrame f run o).Silent := by
  have h1 : (s.withLbi { s.lbi with line := .waitIdle, recessiveRun := run, errorRun := false }).Silent :=
    h.withLbi rfl rfl rfl rfl rfl rfl
  unfold State.receiveFrame
  simp only [h.not_onLine, Bool.false_eq_true, if_false]
  split
  · exact h1
  · exact h1.offerInbound f

theorem discardFrame (h : s.Silent) (cause run : Nat) : (s.discardFrame cause run).Silent := by
  have h0 : (s.withLbi { s.lbi with line := .waitIdle, recessiveRun := run, errorRun := true }).Silent :=
    h.withLbi rfl rfl rfl rfl rfl rfl
  have h1 := h0.of_eq (t := State.count _ .receiveErrors) rfl rfl
  unfold State.discardFrame
  simp only
  split
  · exact h1
  · exact h1.of_eq rfl rfl

theorem dequeued (h : s.Silent) : s.dequeued.Silent := h.withLbi rfl rfl rfl rfl rfl rfl

theorem looped (h : s.Silent) : s.looped.Silent := h.withLbi rfl rfl rfl rfl rfl rfl

theorem takeClaimList (h : s.Silent) (o : Nat) (claims : List (Nat × Reason)) : (s.takeClaimList o claims).Silent := by
  unfold State.takeClaimList
  simp only
  split <;> exact h.of_eq rfl rfl

theorem dismissStale (h : s.Silent) (o : Nat) : (s.dismissStale o).Silent := by
  unfold State.dismissStale
  simp only
  split <;> exact h.of_eq rfl rfl

theorem removeNotices (h : s.Silent) (n : Nat) : (s.removeNotices n).Silent := by
  unfold State.removeNotices
  simp only
  split_ifs <;> exact h.of_eq rfl rfl

end State.Silent

/-- No effect but a cold reset takes a SILENT station out of that state. -/
theorem Effect.silent {s u : State} {c : Instr} (h : Effect s c u) (hcold : ∀ lcs, c ≠ .coldReset lcs)
    (hs : s.Silent) : u.Silent := by
  cases h with
  | coldReset lcs => exact absurd rfl (hcold lcs)
  | resetnHeldLow => exact ⟨hs.station, hs.mode, rfl, hs.slot, hs.urgent, hs.normal, hs.deferred⟩
  | encoderCount line order =>
    refine State.Silent.decodeEncoder ?_ order
    exact hs.of_eq rfl rfl
  | encoderError =>
    refine State.Silent.decodeEncoder ?_ []
    exact hs.of_eq rfl rfl
  | sensorEdge n level order =>
    refine State.Silent.filterLevel ?_ n level order
    exact hs.of_eq rfl rfl
  | timebaseAdvance | claimStale | discardExpiry | lcsRise | localTransaction | answered => exact hs.of_eq rfl rfl
  | msPulseEnd ch =>
    exact State.settleSpill_kept silent_kept.toKeptByMarks (State.pulseEnded_kept silent_kept.toKeptByMarks
      (State.idleChannel_kept silent_kept.toKeptByMarks hs ch) ch)
  | lineIdle | yieldGapEnd | startBitRead =>
    exact ⟨hs.station, hs.mode, hs.attempt, hs.slot, hs.urgent, hs.normal, hs.deferred⟩
  | arbitrationLost => exact ⟨hs.station, hs.mode, rfl, hs.slot, hs.urgent, hs.normal, hs.deferred⟩
  | receiveError bits cause => exact hs.discardFrame ..
  | validFrameEnd bits o f => exact hs.receiveFrame ..
  -- what a SILENT station does not do
  | refreshExpiry live onLine => simp [hs.not_onLine] at onLine
  | quietExpiry live quiet => simp [hs.mode] at quiet
  | joinDone o live joining => simp [hs.station] at joining
  | attemptStart x l live ready => simp [hs.mode] at ready
  | frameAborted x live attempt => simp [hs.attempt] at attempt
  | ownFrameEnd f x live attempt => simp [hs.attempt] at attempt
  -- frames
  | markFrame o e =>
    unfold State.takeMark
    rw [if_neg (by simp [hs.dequeued.not_active])]
    exact hs.dequeued
  | zeroFrame e =>
    unfold State.takeZero
    simp only [hs.dequeued.not_onLine, Bool.false_eq_true, if_false]
    split
    · exact hs.dequeued.of_eq rfl rfl
    · exact hs.dequeued
  | zeroLoopback b =>
    unfold State.takeOwnZero
    rw [if_neg (by simp [hs.looped.not_onLine])]
    exact hs.looped
  | cutoverLoopback b => exact hs.looped.of_eq rfl rfl
  | holdFrame e =>
    unfold State.takeHold State.holdFrom
    simp only
    split_ifs <;> exact hs.dequeued.of_eq rfl rfl
  | releaseFrame e =>
    unfold State.takeRelease
    simp only
    split_ifs <;> exact hs.dequeued.of_eq rfl rfl
  | dismissFrame e =>
    unfold State.takeDismiss
    simp only
    split
    · exact hs.dequeued.dismissStale _
    · exact hs.dequeued.of_eq rfl rfl
  | claimsFrame o e =>
    have hlist : ∀ k claims, (s.dequeued.takeClaimList k claims).Silent := hs.dequeued.takeClaimList
    unfold State.takeClaims State.compareClaims
    simp only [hs.dequeued.station]
    split_ifs
    · exact hlist ..
    · exact hlist ..
    · exact hs.dequeued.of_eq rfl rfl
  | censusFrame e =>
    unfold State.takeCensus
    simp only [hs.dequeued.not_onLine, Bool.false_eq_true, if_false]
    split
    · exact hs.dequeued.of_eq rfl rfl
    · exact hs.dequeued
  | cutoverFrame e =>
    unfold State.takeCutover
    simp only [hs.dequeued.not_active, Bool.and_false, Bool.false_eq_true, if_false]
    exact hs.dequeued
  -- requests
  | takeNotices p =>
    unfold State.takeNoticesNow
    simp only
    split
    · exact (hs.removeNotices _).of_eq rfl rfl
    · exact hs.of_eq rfl rfl
  | readHolds p => unfold State.takeReadHolds; split <;> exact hs.of_eq rfl rfl
  | configure p req | restart p req | readMarks p req | postMark p req | zero p req | hold p req | release p req
    | dismiss p req | cutoverAt p req | cutoverNow p req | cancelCutover p req | readRoll p req | freeRoll p req =>
    exact absurd req (hs.not_requested (by decide))

/-- Settles O16: no effect leaves SILENT, and driving the pins changes no block. -/
theorem silentUntilColdReset : Obligations.SilentUntilColdReset := by
  intro c s t hcold h hst hmode hatt hslot hurgent hnormal hdef
  have hs : s.Silent := ⟨hst, hmode, hatt, hslot, hurgent, hnormal, hdef⟩
  have ht : t.Silent := by
    rcases exec_cases h with ⟨_, _, _, rfl, -⟩ | ⟨u, hu, rfl⟩
    · exact hs.of_eq rfl rfl
    · exact (hu.silent hcold hs).of_eq (by simp) (by simp)
  exact ⟨ht.station, ht.mode, ht.attempt, ht.slot, ht.urgent, ht.normal, ht.deferred⟩

end Sys2Proof.Machine
end

section
/-! Timers and the line: the small events (R135, R141, R146, R150, R151, R174), staleness and refresh (R101, R109). -/

namespace Sys2Proof.Machine

/-! ### When an event arises -/

theorem State.expired_some {s : State} {t : Time} (h : reached s.stc.now t = true) :
    s.expired (some t) = true := h

theorem State.reading_of {s : State} (hl : s.live = true) (hm : s.lbi.mode ≠ .off) : s.reading = true := by
  simp [State.reading, hl, hm]

theorem State.onLine_iff {s : State} : s.onLine = true ↔
    s.stc.station = .joining ∨ s.stc.station = .active ∨ s.stc.station = .desync := by
  simp [State.onLine, or_assoc]

theorem State.onLine_configured {s : State} (h : s.onLine = true) : s.configured = true :=
  State.configured_of_onLine h

/-- Settles O43: each event's guard holds, and its effect is the one given. -/
theorem plainTimerAndLineEvents : Obligations.PlainTimerAndLineEvents := by
  intro s hl
  refine ⟨if_pos hl, ?_, ?_, ?_, ?_⟩
  · intro t hmode htimer hreached
    exact if_pos (by simp [hl, hmode, htimer, State.expired_some hreached])
  · intro n t hpending hreached
    exact if_pos (by simp [hl, hpending, State.expired_some hreached])
  · intro hmode
    have hreading := State.reading_of hl hmode
    refine ⟨fun hline => ?_, fun hline hyield => ?_, fun hattempt hline => ?_, fun hattempt hline => ?_⟩
    · exact if_pos (by simp [hreading, hline])
    · exact if_pos (by simp [hreading, hline, hyield])
    · refine (if_pos (by simp [hreading, hattempt])).trans ?_
      simp only [if_pos hline]
      rfl
    · refine (if_pos (by simp [hreading, hattempt])).trans ?_
      simp only [if_neg hline]
      rfl
  · intro hattempt
    exact if_pos (by simp [hl, Option.isSome_iff_ne_none, hattempt])

/-! ### Staleness and refresh -/

theorem State.liveOf_eq (s : State) (o : Nat) :
    s.liveOf o = (s.htu.table.filter (fun r => r.origin == o && !r.stale)).length := by
  simp only [State.liveOf, Htu.of, List.filter_filter]
  congr 1
  exact List.filter_congr fun r _ => Bool.and_comm ..

theorem State.liveOf_ne_zero {s : State} {o : Nat} (h : ∃ r ∈ s.htu.table, r.origin = o ∧ r.stale = false) :
    s.liveOf o ≠ 0 := by
  obtain ⟨r, hr, ho, hs⟩ := h
  rw [State.liveOf_eq, ne_eq, List.length_eq_zero_iff, List.filter_eq_nil_iff]
  exact fun hall => hall r hr (by simp [ho, hs])

theorem State.ownClaims_isEmpty {s : State} :
    s.ownClaims.isEmpty = true ↔ ∀ r ∈ s.htu.table, r.origin ≠ s.cfg.station := by
  simp [State.ownClaims, Htu.of]

theorem exec_refreshExpiry {s : State} (hl : s.live = true) (hon : s.onLine = true) {t : Time}
    (htimer : s.htu.refresh = some t) (hreached : reached s.stc.now t = true) :
    exec .refreshExpiry s = .next s.refreshNow.driven :=
  if_pos (by simp [hl, hon, htimer, State.expired_some hreached])

/-- Settles O44: the guard of CLAIM STALE, and the three rows of a refresh. -/
theorem stalenessAndRefresh : Obligations.StalenessAndRefresh := by
  intro s hl
  constructor
  · intro o t hconf hother hlive hheard hsilent
    have hguard : s.silentTooLong o = true := by
      have hlo := State.liveOf_ne_zero hlive
      simp only [State.silentTooLong, Htu.heard, hheard]
      rw [decide_eq_true hsilent, Bool.and_true, Bool.and_eq_true, bne_iff_ne, bne_iff_ne]
      exact ⟨hother, hlo⟩
    refine (if_pos (by rw [hl, hconf, hguard]; rfl)).trans ?_
    rw [State.makeStale, State.liveOf_eq]
    rfl
  · intro t hstation htimer hreached next
    have hexec := exec_refreshExpiry hl (State.onLine_iff.mpr hstation) htimer hreached
    refine ⟨fun hown => ?_, fun hnone => ⟨fun htail => ?_, fun htail => ?_⟩⟩ <;> rw [hexec] <;> congr 2
    · exact if_pos (by
        rw [Bool.not_eq_true', Bool.eq_false_iff, ne_eq, State.ownClaims_isEmpty]
        push Not
        exact hown)
    · have hempty := State.ownClaims_isEmpty.mpr hnone
      simp only [State.refreshNow, hempty, htail, Bool.not_true, Bool.false_eq_true, if_false, if_true]
      rfl
    · have hempty := State.ownClaims_isEmpty.mpr hnone
      simp [State.refreshNow, hempty, htail]

end Sys2Proof.Machine
end

section
/-! Sending: the start of an attempt (R145, R160), its bit error (R147, R149), and its end (R148). -/

namespace Sys2Proof.Machine

/-! ### The frames that may start -/

/-- A frame is barred while a ZERO waits to be taken, or a loopback, by its kind (R86, R145). -/
theorem Lbi.barred_iff {l : Lbi} {f : OutFrame} : l.barred f = true ↔
    (f.kind = .cutover ∧ (l.loopback ≠ none ∨ ∃ e ∈ l.inbound, e.frame.kind = .zero)) ∨
    (f.kind = .zero ∧ l.loopback ≠ none) := by
  unfold Lbi.barred Lbi.zeroWaits
  cases l.loopback <;> cases f.kind <;> simp

theorem Lbi.startable_slot {l : Lbi} {x : SendSlot} (hslot : l.slot = some x) (hb : l.barred x.frame = false)
    (hy : x.frame.kind.normalClass = false ∨ l.yieldPending = false) : l.startable = some (x, l) := by
  rcases hy with hy | hy <;> simp [Lbi.startable, hslot, hb, hy]

theorem Lbi.startable_urgent {l : Lbi} {f : OutFrame} {fs : List OutFrame} (hslot : l.slot = none)
    (hu : l.urgent = f :: fs) (hb : l.barred f = false) : l.startable = some (⟨f, 0⟩, { l with urgent := fs }) := by
  cases hn : l.normal <;> simp [Lbi.startable, hslot, hu, hn, hb]

theorem Lbi.startable_normal {l : Lbi} {g : OutFrame} {gs : List OutFrame} (hslot : l.slot = none)
    (hu : ∀ f fs, l.urgent = f :: fs → l.barred f = true) (hn : l.normal = g :: gs) (hb : l.barred g = false)
    (hy : l.yieldPending = false) : l.startable = some (⟨g, 0⟩, { l with normal := gs }) := by
  cases hur : l.urgent with
  | nil => simp [Lbi.startable, hslot, hur, hn, hb, hy]
  | cons f fs => simp [Lbi.startable, hslot, hur, hn, hb, hy, hu f fs hur]

theorem exec_attemptStart {s : State} (hl : s.live = true) (hm : s.lbi.mode = .ready) (hline : s.lbi.line = .idle)
    {x : SendSlot} {l : Lbi} (h : s.lbi.startable = some (x, l)) :
    exec .attemptStart s = .next (s.beginAttempt x l).driven := by
  change execAttemptStart s = _
  rw [execAttemptStart, if_pos (by simp [hl, hm, hline]), h]
  rfl

/-- With no place freed no deferred request is queued. -/
theorem Lbi.settleDeferred_self (l : Lbi) : Lbi.settleDeferred l l = l := by
  simp [Lbi.settleDeferred]

/-- Settles O46: the three rows of what may start. -/
theorem attemptStarts : Obligations.AttemptStarts := by
  intro s hl hm hline barred started
  have hbarred : ∀ f, ¬ barred f → s.lbi.barred f = false := fun f hf =>
    Bool.eq_false_iff.mpr (mt Lbi.barred_iff.mp hf)
  refine ⟨fun x hslot hb hy => ?_, fun f fs hslot hu hb => ?_, fun g gs hslot hu hn hb hy => ?_, rfl⟩
  · rw [exec_attemptStart hl hm hline (Lbi.startable_slot hslot (hbarred _ hb) hy), State.beginAttempt,
      Lbi.settleDeferred_self]
  · exact exec_attemptStart hl hm hline (Lbi.startable_urgent hslot hu (hbarred _ hb))
  · exact exec_attemptStart hl hm hline
      (Lbi.startable_normal hslot (fun f fs e => Lbi.barred_iff.mpr (hu f fs e)) hn (hbarred _ hb) hy)

/-! ### The bit error -/

theorem exec_frameAborted {s : State} {f : LineFrame} {x : SendSlot} (hl : s.live = true)
    (hf : s.lbi.attempt = some f) (hx : s.lbi.slot = some x) :
    exec .frameAborted s = .next (s.abortAttempt x).driven := by
  change execFrameAborted s = _
  rw [execFrameAborted, if_pos (by simp [hl, hf]), hx]
  rfl

/-- A CUTOVER given up makes its set NOT SENT; no other frame is reported (R124). -/
theorem State.reportAbandoned_eq (s : State) (f : OutFrame) : s.reportAbandoned f = s.withRmu (match f with
    | .cutover _ n => { s.rmu with closed := s.rmu.closed.map (fun c =>
        if c.set.number = n then { c with announcement := .notSent } else c) }
    | _ => s.rmu) := by
  cases f <;> rfl

/-- Settles O47: the first failure, the later ones, and the eighth. -/
theorem bitErrorAbortsTheAttempt : Obligations.BitErrorAbortsTheAttempt := by
  intro s f x hl hf hx
  have hexec := exec_frameAborted hl hf hx
  obtain ⟨frame, failed⟩ := x
  intro kind station aborted
  refine ⟨fun h0 => ?_, fun h1 h6 => ?_, fun h7 => ⟨_, hexec, ?_, ?_⟩⟩
  · rw [hexec, State.abortAttempt, if_neg (by omega), if_pos h0]
    rfl
  · rw [hexec, State.abortAttempt, if_neg (by omega), if_neg (by omega)]
    rfl
  · rw [State.abortAttempt, if_pos (by omega), if_neg (by omega), State.dropFrame]
    simp only [State.reportAbandoned_eq]
    rfl
  · rw [State.abortAttempt, if_pos (by omega), if_neg (by omega), State.dropFrame]
    simp only [State.reportAbandoned_eq, State.rmu_withLbi, State.rmu_withRmu]
    cases frame <;> rfl

/-! ### The frame end -/

theorem exec_ownFrameEnd {s : State} {f : LineFrame} {x : SendSlot} (hl : s.live = true)
    (hf : s.lbi.attempt = some f) (hx : s.lbi.slot = some x) :
    exec .ownFrameEnd s = .next (s.endAttempt f x).driven := by
  change execOwnFrameEnd s = _
  rw [execOwnFrameEnd, hl, hf, hx]
  rfl

/-- Settles O48: by the kind of the frame in the slot. -/
theorem ownFrameEnds : Obligations.OwnFrameEnds := by
  intro s f x hl hf hx sent
  have hexec := exec_ownFrameEnd hl hf hx
  have hend : s.endAttempt f x = sent.handOn f x.frame := rfl
  rw [hexec, hend]
  refine ⟨fun hk => ?_, fun m hm => ?_, fun t ht => ?_, fun hk => ?_⟩
  · cases hframe : x.frame <;> simp [hframe, OutFrame.kind] at hk <;> rfl
  · rw [hm]
    cases hfresh : m.fresh <;> simp [State.handOn, hfresh] <;> rfl
  · rw [ht]
    rfl
  · cases hframe : x.frame <;> simp [hframe, OutFrame.kind] at hk <;> rfl

end Sys2Proof.Machine
end

section
/-! Frames that are discarded or only answered: MARK, ZERO, DISMISS and CENSUS (R21, R82, R102, R103). -/

namespace Sys2Proof.Machine

/-! ### Stations -/

theorem validStation_eq_false_iff {o : Nat} : validStation o = false ↔ o = 0 ∨ 25 ≤ o := by
  rw [← Bool.not_eq_true, validStation_iff]
  omega

/-- A frame is taken on the line or in SILENT. -/
theorem FrameNext.onLine {s : State} {k : FrameKind} {e : InEntry} (h : FrameNext s k e)
    (hs : s.stc.station ≠ .silent) : s.onLine = true := by
  have hu : s.stc.station ≠ .unconfigured := fun hu => by
    have := h.configured
    rw [State.configured_eq_false.mpr hu] at this
    cases this
  rw [State.onLine_iff]
  revert hs hu
  cases s.stc.station <;> simp

/-! ### MARK and ZERO frames -/

theorem exec_markFrame {s : State} {e : InEntry} (o : NoticeOrder) (h : FrameNext s .mark e) :
    exec (.markFrame o) s = .next (s.dequeued.takeMark o e.frame.origin (parseMark e.frame.payload)).driven :=
  (takeFrame_next h _ : execMarkFrame o s = _)

theorem exec_zeroFrame {s : State} {e : InEntry} (h : FrameNext s .zero e) :
    exec .zeroFrame s = .next (s.dequeued.takeZero e).driven :=
  (takeFrame_next h _ : execZeroFrame s = _)

theorem State.takeMark_of_fails {s : State} (n : NoticeOrder) {o v : Nat} {m : MarkFrame}
    (hactive : s.stc.station = .active) (hfail : markFault o m = some v) :
    s.takeMark n o m = s.notice .markInvalid (some o) (some m.number) (some (BitVec.ofNat 32 v)) := by
  simp [State.takeMark, hactive, hfail, valueOf]

theorem State.takeMark_of_not_active {s : State} (n : NoticeOrder) (o : Nat) (m : MarkFrame)
    (h : s.stc.station ≠ .active) : s.takeMark n o m = s := by
  simp [State.takeMark, h]

/-- Settles O35: each check by its number, and the states that use neither frame. -/
theorem markAndZeroFramesDiscarded : Obligations.MarkAndZeroFramesDiscarded := by
  intro o s e
  constructor
  · intro hnext
    rw [exec_markFrame o hnext]
    refine ⟨fun hn => by rw [State.takeMark_of_not_active (s := s.dequeued) _ _ _ hn], ?_⟩
    intro m invalid hactive
    have hfails : ∀ v, markFault e.frame.origin m = some v →
        s.dequeued.takeMark o e.frame.origin m = invalid v :=
      fun v => State.takeMark_of_fails (s := s.dequeued) o hactive
    refine ⟨fun ho => ?_, fun h1 h24 => ⟨fun hk => ?_, fun hk hlanes => ?_⟩⟩
    · rw [hfails 1 (by simp [markFault, validStation_eq_false_iff.mpr ho])]
    · rw [hfails 2 (by simp [markFault, validStation_iff.mpr ⟨h1, h24⟩, hk, blindKind])]
    · rw [hfails 3 (by simp [markFault, validStation_iff.mpr ⟨h1, h24⟩, hk, hlanes, blindKind])]
  · intro hnext
    rw [exec_zeroFrame hnext]
    refine ⟨fun ho => ?_, fun h1 h24 hsilent => ?_⟩
    · simp only [State.takeZero, validStation_eq_false_iff.mpr ho, Bool.not_false, if_true]
    · have hoff : s.dequeued.onLine = false := by
        change s.onLine = false
        simp [State.onLine, hsilent]
      simp [State.takeZero, validStation_iff.mpr ⟨h1, h24⟩, hoff]

/-! ### DISMISS and CENSUS frames -/

/-- A request for CENSUS or CLAIMS is answered by a frame that waits, or is deferred (R160). -/
theorem Lbi.mem_request {l : Lbi} (ha : l.accepts = true) (r : DeferredRequest) :
    r.frame ∈ (l.request r).normal ∨ r ∈ (l.request r).deferred := by
  unfold Lbi.request
  simp only [ha, Bool.not_true, Bool.false_eq_true, if_false]
  split
  · next h => simpa using h
  · split
    · exact .inl (by simp [Lbi.queueNormal, ha])
    · exact .inr (by simp)

/-- A claim frame with failing content is answered with the notice that names its kind alone. -/
theorem State.claimInvalid_eq {s : State} {f : LineFrame} {k : FrameKind} (hk : f.kind = k) :
    s.claimInvalid f = s.notice .claimInvalid (some f.origin) none (some (BitVec.ofNat 32 k.byte)) := by
  rw [State.claimInvalid, hk]
  rfl

/-- Settles O40. -/
theorem dismissAndCensusFrames : Obligations.DismissAndCensusFrames := by
  intro s e
  constructor
  · intro hnext t gone kept
    have hexec : exec .dismissFrame s = .next (s.dequeued.takeDismiss e).driven :=
      (takeFrame_next hnext _ : execDismissFrame s = _)
    refine ⟨fun h1 h24 ht1 ht24 => ?_, fun hbad => ?_⟩
    · rw [hexec, State.takeDismiss, if_pos (by simp [h1, h24, ht1, ht24, t])]
      rfl
    · have hfail : ¬ (validStation e.frame.origin && validStation t) = true := by
        rw [Bool.and_eq_true, validStation_iff, validStation_iff]
        omega
      rw [hexec, State.takeDismiss, if_neg hfail, State.claimInvalid_eq hnext.kind]
      rfl
  · intro hnext
    have hexec : exec .censusFrame s = .next (s.dequeued.takeCensus e).driven :=
      (takeFrame_next hnext _ : execCensusFrame s = _)
    rw [hexec]
    refine ⟨fun h1 h24 hs => ⟨?_, fun ha => Lbi.mem_request (l := s.dequeued.lbi) ha .claims⟩, fun h1 h24 hs => ?_,
      fun hbad => ?_⟩
    · have hon : s.dequeued.onLine = true := hnext.onLine hs
      simp [State.takeCensus, validStation_iff.mpr ⟨h1, h24⟩, hon]
    · have hoff : s.dequeued.onLine = false := by
        change s.onLine = false
        simp [State.onLine, hs]
      simp [State.takeCensus, validStation_iff.mpr ⟨h1, h24⟩, hoff]
    · rw [State.takeCensus, if_pos (by simp [validStation_eq_false_iff.mpr hbad]), State.claimInvalid_eq hnext.kind]
      rfl

end Sys2Proof.Machine
end

section
/-! Requests refused before their block (R166, R181), and the operator's requests (R81, R105 to R107). -/

namespace Sys2Proof.Machine

/-! ### The decoding of a request -/

/-- The command of a request takes it, whatever its block does. -/
theorem exec_command {s : State} {r : Request} {p : List Byte} (hs : s.lpt.slot = .preparing r.code p) :
    ∃ body, exec (r.command p) s = takeRequest s r body := by
  cases r with
  | cutover =>
    have hnow : s.cutoverIsNow = (byteAt p 0 == 1) := by
      unfold State.cutoverIsNow
      rw [State.taken_of_slot hs]
    by_cases h1 : byteAt p 0 = 1
    · refine ⟨State.takeCutoverNow, ?_⟩
      rw [show Request.cutover.command p = .cutoverNow from if_pos h1]
      exact if_pos (by simp [hnow, h1])
    · refine ⟨State.takeCutoverAt, ?_⟩
      rw [show Request.cutover.command p = .cutoverAt from if_neg h1]
      exact if_neg (by simp [hnow, h1])
  | configure | restart | readState | readCounters | takeNotices | readMarks | postMark | zero | readHolds | hold
  | release | dismiss | cancelCutover | readRoll | freeRoll => exact ⟨_, rfl⟩

theorem Request.lengthPayload_eq (r : Request) : r.lengthPayload = if r = .configure then [0, 0] else [] := by
  cases r <;> rfl

/-- The codes of section 10.4 lie in the ranges its table leaves. -/
theorem not_request_code (code : Byte) (h : code = 0 ∨ (0x06#8 ≤ code ∧ code ≤ 0x0F) ∨ (0x12#8 ≤ code ∧ code ≤ 0x17) ∨
    (0x19#8 ≤ code ∧ code ≤ 0x1F) ∨ (0x24#8 ≤ code ∧ code ≤ 0x2F) ∨ 0x34#8 ≤ code) :
    Request.list.any (fun r => r.code == code) = false := by
  rw [List.any_eq_false]
  intro r _ he
  have hcode : r.code = code := eq_of_beq he
  subst hcode
  revert h
  cases r <;> decide

/-- Settles O60. -/
theorem requestsRefusedBeforeTheirBlock : Obligations.RequestsRefusedBeforeTheirBlock := by
  refine ⟨fun s code p hl hs => ⟨fun hunknown => ?_, fun r _ hcode => ?_⟩, rfl, rfl, fun r st => ?_⟩
  · have hcode : s.unknownCode = some code := by
      simp [State.unknownCode, hs, not_request_code code hunknown]
    change execUndefined s = _
    rw [execUndefined, hl, hcode]
    rfl
  · subst hcode
    obtain ⟨body, hbody⟩ := exec_command hs
    refine ⟨fun status hr => ?_, fun hr hlen => ?_⟩
    · rw [hbody, takeRequest_refused hl hs hr]
      rfl
    · rw [hbody, takeRequest_length hl hs hr hlen, Request.lengthPayload_eq]
      rfl
  · cases r <;> cases st <;> rfl

/-! ### Claims made and released -/

/-- A HOLD or RELEASE frame that is offered stands in the urgent class (R104). -/
theorem Lbi.mem_queueClaim {l : Lbi} (ha : l.accepts = true) (n : Nat) (f : OutFrame) :
    f ∈ (l.queueClaim n f).urgent := by
  unfold Lbi.queueClaim
  rw [if_pos ha]
  split
  · next h =>
    obtain ⟨g, hg, hn⟩ := List.any_eq_true.mp h
    exact List.mem_map.mpr ⟨g, hg, if_pos hn⟩
  · simp

/-- The record put in is the one found of its identity. -/
theorem find_putHold (r : HoldRecord) (table : List HoldRecord) :
    (putHold r table).find? (fun q => q.is r.origin r.claim) = some r := by
  have hr : r.is r.origin r.claim = true := HoldRecord.is_iff.mpr ⟨rfl, rfl⟩
  cases hf : (putHold r table).find? (fun q => q.is r.origin r.claim) with
  | none =>
    rw [List.find?_eq_none] at hf
    exact absurd hr (hf r (mem_putHold.mpr (.inl rfl)))
  | some q =>
    have hq := List.find?_some hf
    rcases mem_putHold.mp (List.mem_of_find?_eq_some hf) with rfl | ⟨-, hne⟩
    · rfl
    · exact absurd (HoldRecord.is_iff.mp hq) hne

theorem State.holdsFor_makeClaim (s : State) (n : Nat) (k : Reason) (m : Option MarkRef) :
    (s.makeClaim n k m).holdsFor n k = true := by
  have hfind : (s.makeClaim n k m).htu.find s.cfg.station n = some ⟨s.cfg.station, n, k, m, false⟩ :=
    find_putHold ⟨s.cfg.station, n, k, m, false⟩ s.htu.table
  have hcfg : (s.makeClaim n k m).cfg = s.cfg := rfl
  simp [State.holdsFor, hcfg, hfind]

theorem State.mem_makeClaim {s : State} (ha : s.lbi.accepts = true) (n : Nat) (k : Reason) (m : Option MarkRef) :
    .hold n k m ∈ (s.makeClaim n k m).lbi.urgent := Lbi.mem_queueClaim ha n _

/-- A claim that is held and released: the record gone, the tail owed where it was the last, the frame queued (R104,
R110). -/
structure Released (s t : State) (n : Nat) : Prop where
  frame : t = (s.withHtu t.htu).withLbi t.lbi
  table : ∀ r, r ∈ t.htu.table ↔ r ∈ s.htu.table ∧ ¬ (r.origin = s.cfg.station ∧ r.claim = n)
  htu : t.htu = { s.htu with table := t.htu.table, tail := t.htu.tail }
  tail : t.htu.tail = if ∃ r ∈ t.htu.table, r.origin = s.cfg.station then s.htu.tail else 3
  lbi : t.lbi = s.lbi.queueClaim n (.release n)

theorem State.releaseClaim_of_held {s : State} {n : Nat} (h : s.holdsClaim n = true) :
    Released s (s.releaseClaim n) n := by
  unfold State.releaseClaim
  rw [if_pos h]
  refine ⟨rfl, fun r => mem_dropHold, rfl, ?_, rfl⟩
  simp only [State.htu_withLbi, State.htu_withHtu]
  congr 1
  simp

/-! ### The operator's requests -/

/-- ZERO. -/
theorem operator_zero {s : State} {p : List Byte} (req : Requested s .zero p) :
    (2147483647 < field p 0 4 → exec .zero s = .next (s.answer .zero .range).driven) ∧
    (field p 0 4 ≤ 2147483647 → ¬ s.lbi.unreservedFree = true → exec .zero s = .next (s.answer .zero .busy).driven) ∧
    (field p 0 4 ≤ 2147483647 → s.lbi.unreservedFree = true → s.lbi.accepts = true → exec .zero s = .next
      ((s.withLbi { s.lbi with urgent := s.lbi.urgent ++
        [.zero (BitVec.ofNat 32 (field p 0 4)) s.cfg.path] }).answer .zero .ok).driven) := by
  have hexec : exec .zero s = .next (s.takeZeroRequest p).driven := takeRequest_next req _
  rw [hexec]
  refine ⟨fun hbig => ?_, fun hsmall hfull => ?_, fun hsmall hfree ha => ?_⟩
  · rw [State.takeZeroRequest, if_pos hbig]
  · rw [State.takeZeroRequest, if_neg (by omega), if_pos (by simpa using hfull)]
  · rw [State.takeZeroRequest, if_neg (by omega), if_neg (by simpa using hfree), Lbi.queueUrgent, if_pos ha]

/-- DISMISS. -/
theorem operator_dismiss {s : State} {p : List Byte} (req : Requested s .dismiss p) :
    ((byteAt p 0 = 0 ∨ 24 < byteAt p 0 ∨ byteAt p 0 = s.cfg.station) →
      exec .dismiss s = .next (s.answer .dismiss .range).driven) ∧
    (1 ≤ byteAt p 0 → byteAt p 0 ≤ 24 → byteAt p 0 ≠ s.cfg.station →
      (¬ s.lbi.unreservedFree = true → exec .dismiss s = .next (s.answer .dismiss .busy).driven) ∧
      (s.lbi.unreservedFree = true → s.lbi.accepts = true → exec .dismiss s = .next
        ((s.withLbi { s.lbi with urgent := s.lbi.urgent ++ [.dismiss (byteAt p 0)] }).answer .dismiss .ok
          [BitVec.ofNat 8 (s.htu.table.filter (fun r => r.origin == byteAt p 0 && r.stale)).length]).driven)) := by
  have hexec : exec .dismiss s = .next (s.takeDismissRequest p).driven := takeRequest_next req _
  rw [hexec]
  have hcheck : (!validStation (byteAt p 0) || decide (byteAt p 0 = s.cfg.station)) = true ↔
      (byteAt p 0 = 0 ∨ 24 < byteAt p 0 ∨ byteAt p 0 = s.cfg.station) := by
    rw [Bool.or_eq_true, Bool.not_eq_true', validStation_eq_false_iff, decide_eq_true_iff]
    omega
  refine ⟨fun hbad => ?_, fun h1 h24 hother => ⟨fun hfull => ?_, fun hfree ha => ?_⟩⟩
  · rw [State.takeDismissRequest, if_pos (hcheck.mpr hbad)]
  · rw [State.takeDismissRequest, if_neg (fun h => by have := hcheck.mp h; omega), if_pos (by simpa using hfull)]
  · rw [State.takeDismissRequest, if_neg (fun h => by have := hcheck.mp h; omega), if_neg (by simpa using hfree),
      Lbi.queueUrgent, if_pos ha]
    rfl

theorem Lbi.claimPlace_iff {l : Lbi} {n : Nat} :
    l.claimPlace n = true ↔ l.waitsFor n = true ∨ l.unreservedFree = true := by
  simp [Lbi.claimPlace]

/-- HOLD. -/
theorem operator_hold {s : State} {p : List Byte} (req : Requested s .hold p) :
    exec .hold s = .next (if 2 < byteAt p 0 then s.answer .hold .range
      else if s.holdsClaim (byteAt p 0) = true then s.answer .hold .inuse
      else if ¬ (s.lbi.waitsFor (byteAt p 0) = true ∨ s.lbi.unreservedFree = true) then s.answer .hold .busy
      else (s.makeClaim (byteAt p 0) .operator none).answer .hold .ok).driven := by
  have hexec : exec .hold s = .next (s.takeHoldRequest p).driven := takeRequest_next req _
  rw [hexec, State.takeHoldRequest]
  simp only [← Lbi.claimPlace_iff, Bool.not_eq_true, Bool.not_eq_true']

/-- RELEASE. -/
theorem operator_release {s : State} {p : List Byte} (req : Requested s .release p) :
    exec .release s = .next (if 3 < byteAt p 0 then s.answer .release .range
      else if s.holdsClaim (byteAt p 0) = false then s.answer .release .nosuch
      else if byteAt p 0 = 3 ∧ s.holdsFor 3 .sight = false then s.answer .release .state
      else if ¬ (s.lbi.waitsFor (byteAt p 0) = true ∨ s.lbi.unreservedFree = true) then s.answer .release .busy
      else ((s.releaseClaim (byteAt p 0)).clearMisses (byteAt p 0)).answer .release .ok).driven := by
  have hexec : exec .release s = .next (s.takeReleaseRequest p).driven := takeRequest_next req _
  rw [hexec, State.takeReleaseRequest]
  simp only [← Lbi.claimPlace_iff, Bool.not_eq_true, Bool.not_eq_true', Bool.and_eq_true, decide_eq_true_eq]

/-- A local release tells the Sensor Capture Unit of claim 3 alone (R76). -/
theorem State.clearMisses_eq (s : State) (n : Nat) :
    s.clearMisses n = s.withScu { s.scu with misses := if n = 3 then 0 else s.scu.misses } := by
  unfold State.clearMisses
  split <;> rfl

/-- Settles O58. -/
theorem operatorRequests : Obligations.OperatorRequests := by
  intro s p n place claimPlace
  refine ⟨operator_zero, operator_dismiss, fun req => ?_, fun req => ?_⟩
  · rw [operator_hold req]
    refine ⟨fun h => by rw [if_pos h], fun h => ⟨fun hheld => ?_, fun hfree hplace => ?_, fun hfree hplace => ?_⟩⟩
    · rw [if_neg (by omega), if_pos hheld]
    · rw [if_neg (by omega), if_neg (by simp [n] at hfree; simp [hfree]), if_pos hplace]
    · rw [if_neg (by omega), if_neg (by simp [n] at hfree; simp [hfree]), if_neg (not_not.mpr hplace)]
      exact ⟨rfl, s.holdsFor_makeClaim .., fun ha => State.mem_makeClaim ha ..⟩
  · rw [operator_release req]
    refine ⟨fun h => by rw [if_pos h], fun h => ⟨fun hfree => ?_, fun hheld h3 hsight => ?_, fun hheld hsight =>
      ⟨fun hplace => ?_, fun hplace => ?_⟩⟩⟩
    · rw [if_neg (by omega), if_pos hfree]
    · rw [if_neg (by omega), if_neg (by simp [n] at hheld; simp [hheld]), if_pos ⟨h3, hsight⟩]
    all_goals
      have hstate : ¬ (byteAt p 0 = 3 ∧ s.holdsFor 3 .sight = false) := fun ⟨h3, hno⟩ => by
        rw [hsight h3] at hno
        cases hno
      rw [if_neg (by omega), if_neg (by simp [n] at hheld; simp [hheld]), if_neg hstate]
    · rw [if_pos hplace]
    · rw [if_neg (not_not.mpr hplace)]
      obtain ⟨hframe, htable, hhtu, htail, hlbi⟩ := State.releaseClaim_of_held hheld
      rw [State.clearMisses_eq]
      refine ⟨_, rfl, ?_, htable, hhtu, htail, fun ha => ?_⟩
      · simp only [State.htu_answer, State.htu_withScu, State.lbi_answer, State.lbi_withScu, State.scu_releaseClaim]
        rw [← hframe]
      · change _ ∈ (s.releaseClaim n).lbi.urgent
        rw [hlbi]
        exact Lbi.mem_queueClaim ha ..

end Sys2Proof.Machine
end

section
/-! Reads and TAKE NOTICES: the records of section 10.4 (R42, R113, R182, R185, R186). -/

namespace Sys2Proof.Machine

/-! ### Runs of a list -/

theorem getElem?_numbered {α : Type} (n i : Nat) (xs : List α) :
    (numbered n xs)[i]? = (xs[i]?).map (fun x => (n + i, x)) := by
  induction xs generalizing n i with
  | nil => rfl
  | cons x xs ih =>
    cases i with
    | zero => rfl
    | succ i =>
      rw [numbered, List.getElem?_cons_succ, ih, List.getElem?_cons_succ]
      congr 1
      funext y
      simp only [Prod.mk.injEq, and_true]
      omega

/-- A run of a list, place by place. -/
theorem take_drop_eq_filterMap {α : Type} (xs : List α) (first count : Nat) :
    (xs.drop first).take count = (List.range' first count).filterMap (fun i => xs[i]?) := by
  induction count generalizing first with
  | zero => rfl
  | succ count ih =>
    rw [List.range'_succ, List.filterMap_cons, ← ih]
    cases h : xs[first]? with
    | none =>
      rw [List.getElem?_eq_none_iff] at h
      rw [List.drop_eq_nil_of_le h, List.drop_eq_nil_of_le (by omega)]
      simp
    | some x =>
      obtain ⟨hlt, rfl⟩ := List.getElem?_eq_some_iff.mp h
      rw [List.drop_eq_getElem_cons hlt]
      rfl

/-- What a run of numbered elements maps to. -/
theorem map_take_drop_numbered {α β : Type} (f : Nat × α → β) (xs : List α) (first count : Nat) :
    (((numbered 0 xs).drop first).take count).map f =
      (List.range' first count).filterMap (fun i => (xs[i]?).map (fun x => f (i, x))) := by
  rw [take_drop_eq_filterMap, List.map_filterMap]
  congr 1
  funext i
  rw [getElem?_numbered, Option.map_map, Nat.zero_add]
  rfl

/-! ### The records -/

@[simp] theorem length_optional32 (v : Option (BitVec 32)) : (optional32 v).length = 4 := length_bytesBE ..

theorem Action.length_bytes (a : Action) : a.bytes.length = 12 := by simp [Action.bytes]

/-- Sixteen bytes, and four slots of twelve where the record has at most four actions. -/
theorem MarkRecord.length_bytes (ir : Nat × MarkRecord) (h : ir.2.actions.length ≤ 4) :
    (MarkRecord.bytes ir).length = 64 := by
  have hslots : (ir.2.actions.flatMap Action.bytes).length = 12 * ir.2.actions.length := by
    generalize ir.2.actions = as
    induction as with
    | nil => rfl
    | cons a as ih => rw [List.flatMap_cons, List.length_append, ih, Action.length_bytes, List.length_cons]; omega
  simp only [MarkRecord.bytes, List.length_append, List.length_cons, List.length_nil, length_bytesBE, hslots,
    List.length_replicate]
  omega

theorem State.length_holdBytes (s : State) (r : HoldRecord) : (s.holdBytes r).length = 8 := by
  simp [State.holdBytes]

theorem Notice.length_bytes (n : Notice) : n.bytes.length = 17 := by simp [Notice.bytes]

theorem State.length_picture (s : State) : s.picture.length = 64 := by
  simp [State.picture, captureBytes]

/-! ### The reads -/

/-- The request's block answers, in the slot. -/
theorem State.answer_eq (s : State) (r : Request) (status : Status) (payload : List Byte) :
    s.answer r status payload = s.withLpt { s.lpt with slot := .ready ⟨r.code, status, payload⟩ } := rfl

theorem exec_readMarks {s : State} {p : List Byte} (req : Requested s .readMarks p) :
    exec .readMarks s = .next (if byteAt p 0 ≤ 63 ∧ 1 ≤ byteAt p 1 ∧ byteAt p 1 ≤ 8
      then s.answer .readMarks .ok (s.markBytes (byteAt p 0) (byteAt p 1)) else s.answer .readMarks .range).driven := by
  have hexec : exec .readMarks s = .next (s.takeReadMarks p).driven := takeRequest_next req _
  rw [hexec, State.takeReadMarks]
  simp only [Bool.and_eq_true, decide_eq_true_eq, within_iff]

theorem exec_readHolds {s : State} {p : List Byte} (req : Requested s .readHolds p) :
    exec .readHolds s = .next (if byteAt p 0 ≤ 95 ∧ 1 ≤ byteAt p 1 ∧ byteAt p 1 ≤ 24
      then s.answer .readHolds .ok (s.holdsBytes (byteAt p 0) (byteAt p 1))
      else s.answer .readHolds .range).driven := by
  have hexec : exec .readHolds s = .next (s.takeReadHolds p).driven := takeRequest_next req _
  rw [hexec, State.takeReadHolds]
  simp only [Bool.and_eq_true, decide_eq_true_eq, within_iff]

/-- Settles O54: the payloads as the model builds them are the records listed. -/
theorem readsChangeNothing : Obligations.ReadsChangeNothing := by
  refine ⟨rfl, rfl, rfl, rfl, rfl, rfl, rfl, rfl, ?_⟩
  intro s byte bit word seen capture picture slot record age claim
  have hpicture : s.picture = picture := by
    unfold State.picture Rmu.currentCode
    cases hconfig : s.stc.config <;> cases hcurrent : s.rmu.current with
    | none => simp only [picture, hconfig, hcurrent]; rfl
    | some c => cases hcut : c.cut <;> simp only [picture, hconfig, hcurrent, hcut] <;> rfl
  have hrecord : ∀ i r, record i r = MarkRecord.bytes (i, r) := fun _ _ => rfl
  have hclaim : ∀ r, claim r = s.holdBytes r := fun _ => rfl
  refine ⟨fun req => ⟨hpicture ▸ s.length_picture, ?_⟩, fun p req => ?_, fun p req => ?_⟩
  · rw [← hpicture]
    exact takeRequest_next req _
  · rw [exec_readMarks req]
    refine ⟨fun h0 h1 h8 => ?_, fun hbad => by rw [if_neg (by omega)]⟩
    intro given
    have hgiven : given = (((numbered 0 s.mke.queue).drop (byteAt p 0)).take (byteAt p 1)).map MarkRecord.bytes := by
      rw [map_take_drop_numbered]
      rfl
    refine ⟨fun hfour x hx => ?_, ?_⟩
    · obtain ⟨i, -, hi⟩ := List.mem_filterMap.mp hx
      obtain ⟨r, hr, rfl⟩ := Option.map_eq_some_iff.mp hi
      exact MarkRecord.length_bytes (i, r) (hfour r (List.mem_of_getElem? hr))
    · rw [if_pos ⟨h0, h1, h8⟩, hgiven, List.length_map, ← List.flatMap_def]
      rfl
  · rw [exec_readHolds req]
    refine ⟨fun h0 h1 h24 => ?_, fun hbad => ?_⟩
    · intro given
      refine ⟨fun x hx => ?_, ?_⟩
      · obtain ⟨r, -, rfl⟩ := List.mem_map.mp hx
        exact s.length_holdBytes r
      · rw [if_pos ⟨h0, h1, h24⟩, ← List.flatMap_def]
        rfl
    · rw [if_neg (by omega)]

/-! ### TAKE NOTICES -/

/-- Some notices are given and some were lost: NOTICES LOST follows. -/
abbrev State.tellsLost (s : State) (n : Nat) : Prop := 0 < s.lpt.lost ∧ s.lpt.notices.take n ≠ []

/-- The notices left after a take (R185, R186). -/
def State.noticesLeft (s : State) (n : Nat) : List Notice :=
  s.lpt.notices.drop n ++ (if s.tellsLost n then
    [⟨.noticesLost, s.stc.now, if s.lcu.synced then some s.lcu.coord else none, none, none,
      some (BitVec.ofNat 32 s.lpt.lost)⟩] else [])

theorem State.removeNotices_eq (s : State) (n : Nat) (h : s.lpt.notices.length ≤ 32) :
    s.removeNotices n = (s.withLcu { s.lcu with
        encoderOutstanding := s.lcu.encoderOutstanding &&
          !(s.lpt.notices.take n).any (fun x => x.kind == .encoder) }).withLpt { s.lpt with
        notices := s.noticesLeft n, lost := if s.tellsLost n then 0 else s.lpt.lost } := by
  have htold : ((!(s.lpt.notices.take n).isEmpty && decide (0 < s.lpt.lost)) = true) ↔ s.tellsLost n := by
    rw [Bool.and_eq_true, Bool.not_eq_true', List.isEmpty_eq_false_iff, decide_eq_true_iff, and_comm]
  have hroom : s.tellsLost n → (s.lpt.notices.drop n).length < 32 := fun ⟨_, hne⟩ => by
    have hn : n ≠ 0 := fun e => hne (by rw [e]; rfl)
    have hl : s.lpt.notices ≠ [] := fun e => hne (by rw [e]; exact List.take_nil)
    have := List.length_pos_iff.mpr hl
    rw [List.length_drop]
    omega
  unfold State.removeNotices State.noticesLeft
  simp only [htold]
  by_cases ht : s.tellsLost n
  · have hplace : ∀ (l : Lpt) x, l.notices = s.lpt.notices.drop n →
        l.place x = { l with notices := l.notices ++ [x] } := fun l x e => if_pos (e ▸ hroom ht)
    simp only [if_pos ht, State.notice]
    cases hany : (s.lpt.notices.take n).any (fun x => x.kind == .encoder) <;>
      simp only [Bool.false_eq_true, if_false, if_true] <;> rw [hplace _ _ rfl] <;>
      simp only [Bool.not_false, Bool.and_true, Bool.not_true, Bool.and_false] <;> rfl
  · simp only [if_neg ht, List.append_nil]
    cases hany : (s.lpt.notices.take n).any (fun x => x.kind == .encoder) <;>
      simp only [Bool.not_false, Bool.and_true, Bool.not_true, Bool.and_false] <;> rfl

/-- Settles O56. -/
theorem takeNoticesFreesPlaces : Obligations.TakeNoticesFreesPlaces := by
  refine ⟨rfl, fun s p req => ?_⟩
  have hexec : exec .takeNotices s = .next (s.takeNoticesNow p).driven := takeRequest_next req _
  rw [hexec, State.takeNoticesNow]
  refine ⟨fun hbad => ?_, fun h1 h4 hroom => ?_⟩
  · rw [if_neg (by rw [within_iff]; omega)]
  · intro given told left byte bit word record
    have hrecord : ∀ x, record x = x.bytes := fun _ => rfl
    refine ⟨fun x _ => (hrecord x) ▸ x.length_bytes, ?_⟩
    rw [if_pos (within_iff.mpr ⟨h1, h4⟩), State.removeNotices_eq s _ hroom]
    rfl

end Sys2Proof.Machine
end

section
/-! Entries to DESYNC and returns to ACTIVE: what they leave in every block (R92, R94, R108). -/

namespace Sys2Proof.Machine

/-! ### Claim 3 taken and released -/

section Claims

variable (s : State)

@[simp] theorem State.lcu_takeDesyncClaim : s.takeDesyncClaim.lcu = s.lcu := by
  unfold State.takeDesyncClaim; split <;> simp
@[simp] theorem State.aou_takeDesyncClaim : s.takeDesyncClaim.aou = s.aou := by
  unfold State.takeDesyncClaim; split <;> simp
@[simp] theorem State.scu_takeDesyncClaim : s.takeDesyncClaim.scu = s.scu := by
  unfold State.takeDesyncClaim; split <;> simp
@[simp] theorem State.rmu_takeDesyncClaim : s.takeDesyncClaim.rmu = s.rmu := by
  unfold State.takeDesyncClaim; split <;> simp
@[simp] theorem State.stc_takeDesyncClaim : s.takeDesyncClaim.stc = s.stc := by
  unfold State.takeDesyncClaim; split <;> simp
@[simp] theorem State.lpt_takeDesyncClaim : s.takeDesyncClaim.lpt = s.lpt := by
  unfold State.takeDesyncClaim; split <;> simp
@[simp] theorem State.pins_takeDesyncClaim : s.takeDesyncClaim.pins = s.pins := by
  unfold State.takeDesyncClaim; split <;> simp

/-- Only the table and the refresh timer of the Hold Table Unit change. -/
theorem State.htu_takeDesyncClaim : s.takeDesyncClaim.htu =
    { s.htu with table := s.takeDesyncClaim.htu.table, refresh := s.takeDesyncClaim.htu.refresh } := by
  unfold State.takeDesyncClaim; split <;> rfl

/-- Only the urgent class of the Line Bus Interface changes. -/
theorem State.lbi_takeDesyncClaim :
    s.takeDesyncClaim.lbi = { s.lbi with urgent := s.takeDesyncClaim.lbi.urgent } := by
  unfold State.takeDesyncClaim State.makeClaim Lbi.queueClaim
  split
  · rfl
  · simp only [State.lbi_withLbi]
    split
    · split <;> rfl
    · rfl

theorem State.holdsFor_takeDesyncClaim : s.takeDesyncClaim.holdsFor 3 .desync = true := by
  unfold State.takeDesyncClaim
  split
  · assumption
  · exact s.holdsFor_makeClaim ..

@[simp] theorem State.lcu_releaseDesyncClaim : s.releaseDesyncClaim.lcu = s.lcu := by
  unfold State.releaseDesyncClaim; split <;> simp
@[simp] theorem State.aou_releaseDesyncClaim : s.releaseDesyncClaim.aou = s.aou := by
  unfold State.releaseDesyncClaim; split <;> simp
@[simp] theorem State.scu_releaseDesyncClaim : s.releaseDesyncClaim.scu = s.scu := by
  unfold State.releaseDesyncClaim; split <;> simp
@[simp] theorem State.rmu_releaseDesyncClaim : s.releaseDesyncClaim.rmu = s.rmu := by
  unfold State.releaseDesyncClaim; split <;> simp
@[simp] theorem State.stc_releaseDesyncClaim : s.releaseDesyncClaim.stc = s.stc := by
  unfold State.releaseDesyncClaim; split <;> simp
@[simp] theorem State.lpt_releaseDesyncClaim : s.releaseDesyncClaim.lpt = s.lpt := by
  unfold State.releaseDesyncClaim; split <;> simp
@[simp] theorem State.pins_releaseDesyncClaim : s.releaseDesyncClaim.pins = s.pins := by
  unfold State.releaseDesyncClaim; split <;> simp

/-- Only the urgent class of the Line Bus Interface changes. -/
theorem State.lbi_releaseClaim (n : Nat) :
    (s.releaseClaim n).lbi = { s.lbi with urgent := (s.releaseClaim n).lbi.urgent } := by
  unfold State.releaseClaim Lbi.queueClaim
  split
  · simp only [State.lbi_withLbi]
    split
    · split <;> rfl
    · rfl
  · rfl

theorem State.lbi_releaseDesyncClaim :
    s.releaseDesyncClaim.lbi = { s.lbi with urgent := s.releaseDesyncClaim.lbi.urgent } := by
  unfold State.releaseDesyncClaim
  split
  · exact s.lbi_releaseClaim 3
  · rfl

/-- A claim once released is not held. -/
theorem State.find_releaseClaim {n : Nat} (h : s.holdsClaim n = true) :
    (s.releaseClaim n).htu.find s.cfg.station n = none := by
  refine List.find?_eq_none.mpr fun r hr => ?_
  rw [HoldRecord.is_iff]
  exact (((State.releaseClaim_of_held h).table r).mp hr).2

theorem State.holdsClaim_of_holdsFor {s : State} {n : Nat} {k : Reason} (h : s.holdsFor n k = true) :
    s.holdsClaim n = true := by
  unfold State.holdsFor at h
  unfold State.holdsClaim
  split at h
  · next r hr => rw [hr]; rfl
  · cases h

theorem State.holdsFor_releaseDesyncClaim : s.releaseDesyncClaim.holdsFor 3 .desync = false := by
  unfold State.releaseDesyncClaim
  split
  · next h =>
    have hfind := s.find_releaseClaim (State.holdsClaim_of_holdsFor h)
    have hcfg : (s.releaseClaim 3).cfg = s.cfg := by simp [State.cfg]
    simp only [State.holdsFor, hcfg, hfind]
  · next h => exact Bool.eq_false_iff.mpr h

end Claims

/-! ### What an entry to DESYNC is made of -/

/-- The notice that goes with QUEUE EMPTIED, and its fault record, touch no other block. -/
structure CauseOfDesync (cause : State → State) : Prop where
  eq : ∀ t : State, cause t = (t.withStc { t.stc with fault := (cause t).stc.fault }).withLpt (cause t).lpt

theorem causeOfDesync_epochAhead (o : Nat) (n : Option MarkNo) (d : Nat) :
    CauseOfDesync (fun t => t.epochAhead o n d) := ⟨fun _ => rfl⟩

theorem causeOfDesync_noticeJoinDone (st : StationState) : CauseOfDesync (State.noticeJoinDone st) := ⟨fun _ => rfl⟩

/-- The notices of an entry to DESYNC, before its blocks. -/
theorem State.inOrder_emptyQueue {cause : State → State} (hcause : CauseOfDesync cause) (o : NoticeOrder) (s : State) :
    ∃ l f, inOrder o cause State.emptyQueue s = ((s.withMke { s.mke with
      queue := [], spill := none, origins := List.replicate 24 .unknown }).withStc
        { s.stc with fault := f }).withLpt l := by
  cases o with
  | listed =>
    refine ⟨(State.emptyQueue (cause s)).lpt, (cause s).stc.fault, ?_⟩
    simp only [inOrder]
    rw [hcause.eq s]
    rfl
  | reversed =>
    refine ⟨(cause s.emptyQueue).lpt, (cause s.emptyQueue).stc.fault, ?_⟩
    simp only [inOrder]
    rw [hcause.eq]
    rfl

/-- The count of QUEUE EMPTIED. -/
theorem State.emptyQueue_eq (s : State) : s.emptyQueue = (s.withMke { s.mke with
    queue := [], spill := none, origins := List.replicate 24 .unknown }).notice .queueEmptied none none
      (some (BitVec.ofNat 32 (s.mke.queue.length + (s.mke.spill.map Spill.count).getD 0))) := by
  unfold State.emptyQueue
  cases s.mke.spill <;> rfl

/-- What the blocks are after an entry to DESYNC from `s`, the synchronised flag still up. -/
structure DesyncBlocks (s u : State) : Prop where
  lcu : u.lcu = s.lcu
  mke : u.mke = s.mke
  aou : u.aou = s.aou.idled
  scu : u.scu = s.scu.desync
  rmu : u.rmu = s.rmu.markUncertain
  stc : u.stc = { s.stc with station := .desync }
  lpt : u.lpt = s.lpt
  pins : u.pins = s.pins
  htu : u.htu = { s.htu with table := u.htu.table, refresh := u.htu.refresh }
  lbi : u.lbi = { s.lbi with urgent := u.lbi.urgent, normal := u.lbi.normal, deferred := u.lbi.deferred }
  claim : u.holdsFor 3 .desync = true
  census : s.lbi.accepts = true → .census ∈ u.lbi.normal ∨ DeferredRequest.census ∈ u.lbi.deferred

theorem State.desyncBlocks_eq (s : State) : DesyncBlocks s s.desyncBlocks := by
  unfold State.desyncBlocks
  simp only
  generalize hv : (((s.setStation .desync).withScu (s.setStation .desync).scu.desync).withAou
    ((s.setStation .desync).withScu (s.setStation .desync).scu.desync).aou.idled).withRmu
      (State.rmu _).markUncertain = v
  have hhtu := v.htu_takeDesyncClaim
  have hlbi := v.lbi_takeDesyncClaim
  subst hv
  refine ⟨by simp, by simp, by simp, by simp, by simp, by simp; rfl, by simp, by simp, hhtu, ?_, ?_, fun ha => ?_⟩
  · simp only [State.request, State.lbi_withLbi]
    rw [Lbi.same_request, hlbi]
    rfl
  · exact State.holdsFor_takeDesyncClaim _
  · refine Lbi.mem_request ?_ .census
    rw [hlbi]
    exact ha

/-- An entry to DESYNC whose synchronised flag is cleared last. -/
theorem State.enterDesync_enters {s t u : State} {cause : State → State} (hcause : CauseOfDesync cause)
    (o : NoticeOrder) (hu : DesyncBlocks (inOrder o cause State.emptyQueue t) u) (hlcu : t.lcu = s.lcu)
    (hmke : t.mke = s.mke) (haou : t.aou = s.aou) (hscu : t.scu = s.scu) (hrmu : t.rmu = s.rmu)
    (haccepts : t.lbi.accepts = s.lbi.accepts) : EntersDesync s u.clearSync := by
  obtain ⟨l, f, he⟩ := State.inOrder_emptyQueue hcause o t
  rw [he] at hu
  have hget := Aou.get_idled s.aou
  have haou' : u.aou = s.aou.idled := hu.aou.trans (congrArg Aou.idled haou)
  refine ⟨?_, ?_, fun ch => ?_, fun ch => ?_, ?_, ?_, hu.claim, fun ha => ?_⟩
  · rw [State.clearSync, State.lcu_withLcu, hu.lcu, ← hlcu]
    rfl
  · rw [State.mke_clearSync, hu.mke, ← hmke]
    rfl
  · rw [State.aou_clearSync, haou']
    exact (hget ch).1
  · rw [State.aou_clearSync, haou', (hget ch).2]
    cases (s.aou.channels.get ch).state <;> rfl
  · rw [State.scu_clearSync, hu.scu, ← hscu]
    rfl
  · rw [State.rmu_clearSync, hu.rmu, ← hrmu]
    rfl
  · rw [State.lbi_clearSync]
    simpa using hu.census (haccepts.trans ha)

/-! ### MARK frames ahead of the epoch -/

theorem State.compareMark_of_ahead {s : State} (n : NoticeOrder) (o : Nat) {m : MarkFrame}
    (hlow : 1 ≤ s.epochDiff m.epoch) (hhigh : s.epochDiff m.epoch ≤ 127) :
    s.compareMark n o m =
      (s.enterDesync n (fun t => t.epochAhead o (some m.number) (s.epochDiff m.epoch))).clearSync := by
  have hcurrent : s.epochDiff m.epoch ≠ 0 := by omega
  have hprevious : s.epochDiff m.epoch ≠ 255 := by omega
  simp [State.compareMark, hcurrent, hprevious, hhigh]

/-- Settles O34. -/
theorem markAheadEntersDesync : Obligations.MarkAheadEntersDesync := by
  intro o s e hnext hactive m d origin h1 h24 hkind hlanes hlow hhigh
  have hpass : markFault origin m = none := markFault_eq_none_iff.mpr ⟨⟨h1, h24⟩, hkind, hlanes⟩
  have hblocks := State.desyncBlocks_eq
    (inOrder o (fun t => t.epochAhead origin (some m.number) d) State.emptyQueue s.dequeued)
  refine ⟨((s.dequeued.enterDesync o fun t => t.epochAhead origin (some m.number) d)).clearSync, ?_, ?_, ?_, ?_, ?_, ?_,
    ?_, ?_, ?_⟩
  · rw [exec_markFrame o hnext, State.takeMark_of_passes (s := s.dequeued) o hactive hpass,
      State.compareMark_of_ahead (s := s.dequeued) o origin hlow hhigh]
    rfl
  · exact State.enterDesync_enters (causeOfDesync_epochAhead ..) o hblocks rfl rfl rfl rfl rfl rfl
  · rw [State.stc_clearSync]
    exact hblocks.stc.trans (by cases o <;> rfl)
  · intro ahead emptied
    rw [State.lpt_clearSync]
    refine hblocks.lpt.trans ?_
    cases o with
    | listed =>
      simp only [inOrder, State.emptyQueue_eq]
      rfl
    | reversed =>
      simp only [inOrder, State.emptyQueue_eq]
      rfl
  · rw [State.htu_clearSync]
    exact (congrArg Htu.lastHeard hblocks.htu).trans (by cases o <;> rfl)
  · rw [State.htu_clearSync]
    exact (congrArg Htu.tail hblocks.htu).trans (by cases o <;> rfl)
  · rw [State.lbi_clearSync]
    exact (congrArg Lbi.inbound hblocks.lbi).trans (by cases o <;> rfl)
  · rw [State.lpt_clearSync]
    refine (congrArg Lpt.slot hblocks.lpt).trans ?_
    cases o <;> simp [inOrder, State.emptyQueue_eq, State.epochAhead, State.notice, Lpt.slot_place] <;> rfl
  · rw [State.pins_clearSync]
    exact hblocks.pins.trans (by cases o <;> rfl)

/-! ### The end of the join interval -/

theorem exec_joinDone {s : State} (o : NoticeOrder) {t : Time} (hl : s.live = true) (hst : s.stc.station = .joining)
    (hjoin : s.stc.join = some t) (hreached : reached s.stc.now t = true) :
    exec (.joinDone o) s = .next (s.endJoin o).driven :=
  if_pos (by simp [hl, hst, hjoin, State.expired_some hreached])

/-- Settles O45: by the join sync. -/
theorem joinEnds : Obligations.JoinEnds := by
  intro o s t hl hst hjoin hreached
  refine ⟨s.endJoin o, exec_joinDone o hl hst hjoin hreached, ?_⟩
  by_cases hsync : s.lcu.joinSync = .zeroed
  · have hend : s.endJoin o = ((s.withStc { s.stc with join := none }).becomeActive).noticeJoinDone .active := by
      simp only [State.endJoin, hsync]
    have hlpt : (s.endJoin o).lpt = (s.notice .joinDone none none (some 513#32)).lpt := by
      rw [hend]
      simp [State.noticeJoinDone, State.becomeActive, State.setStation, State.notice, State.makeNotice, hsync,
        JoinSync.code, StationState.code, valueOf]
    refine ⟨?_, ?_, fun _ => ⟨?_, ?_, ?_, ?_, ?_, ?_, ?_, hlpt⟩, fun hne => absurd hsync hne⟩
    · rw [hlpt]
      exact Lpt.slot_place ..
    · simp [hend, State.noticeJoinDone, State.becomeActive]
    · simp [hend, State.noticeJoinDone, State.becomeActive, State.setStation]
    · simp [hend, State.noticeJoinDone, State.becomeActive]
    · simp [hend, State.noticeJoinDone, State.becomeActive]
    · simp [hend, State.noticeJoinDone, State.becomeActive]
    · simp [hend, State.noticeJoinDone, State.becomeActive]
    · simp [hend, State.noticeJoinDone, State.becomeActive]
    · rw [hend]
      exact State.holdsFor_releaseDesyncClaim _
  · have hend : s.endJoin o = ((s.withStc { s.stc with join := none }).enterDesync o
        (State.noticeJoinDone .desync)).clearSync := by
      cases h : s.lcu.joinSync <;> simp_all [State.endJoin]
    have hblocks := State.desyncBlocks_eq
      (inOrder o (State.noticeJoinDone .desync) State.emptyQueue (s.withStc { s.stc with join := none }))
    have hvalue : valueOf (256 * StationState.desync.code + s.lcu.joinSync.code) =
        some (768#32 + BitVec.ofNat 32 s.lcu.joinSync.code) := by
      cases s.lcu.joinSync <;> rfl
    have hlpt : (s.endJoin o).lpt = (inOrder o (State.noticeJoinDone .desync) State.emptyQueue
        (s.withStc { s.stc with join := none })).lpt := by
      rw [hend, State.lpt_clearSync]
      exact hblocks.lpt
    refine ⟨?_, ?_, fun h => absurd h hsync, fun _ => ⟨?_, ?_, ?_⟩⟩
    · rw [hlpt]
      cases o <;> simp [inOrder, State.emptyQueue_eq, State.noticeJoinDone, State.notice, Lpt.slot_place]
    · rw [hend, State.pins_clearSync]
      exact hblocks.pins.trans (by cases o <;> rfl)
    · rw [hend]
      exact State.enterDesync_enters (causeOfDesync_noticeJoinDone _) o hblocks rfl rfl rfl rfl rfl rfl
    · rw [hend, State.stc_clearSync]
      exact hblocks.stc.trans (by cases o <;> rfl)
    · intro done emptied
      rw [hlpt]
      cases o with
      | listed =>
        simp only [inOrder, State.emptyQueue_eq, State.noticeJoinDone]
        simp only [done, emptied, ← hvalue]
        rfl
      | reversed =>
        simp only [inOrder, State.emptyQueue_eq, State.noticeJoinDone]
        simp only [done, emptied, ← hvalue]
        rfl

end Sys2Proof.Machine
end

section
/-! The ZERO: the coordinate it sets and the positions it shifts (R13, R84 to R87). -/

namespace Sys2Proof.Machine

/-! ### What a ZERO leaves in each block -/

/-- The blocks after a ZERO shift by `δ` that leaves `remainder`. -/
structure Zeroed (s u : State) (origin : Nat) (δ : BitVec 32) (remainder : Nat) : Prop where
  lcu : u.lcu = { s.lcu with
    coord := s.lcu.coord + δ
    remainder := remainder
    epoch := s.lcu.epoch + 1
    deltaPrev := some δ
    synced := true
    joinSync := if s.stc.station = .joining then .zeroed else s.lcu.joinSync }
  mke : u.mke = s.mke.shift δ
  aou : u.aou = (s.shiftAou δ).aou
  scu : u.scu = s.scu.shift δ
  rmu : u.rmu = s.rmu.shift δ
  lbi : u.lbi = { s.lbi.shift δ with urgent := u.lbi.urgent }
  stc : u.stc = { s.stc with station := if s.stc.station = .desync then .active else s.stc.station }
  lpt : u.lpt = s.lpt.place ⟨.zeroApplied, s.stc.now, some (s.lcu.coord + δ), some origin, none, some δ⟩
  claim : s.stc.station = .desync → u.holdsFor 3 .desync = false

theorem State.applyZero_zeroed (s : State) (origin : Nat) (z : Coord) (path : Nat) (captured : BitVec 32) :
    Zeroed s (s.applyZero origin z path captured) origin (s.zeroDelta z path captured) (s.travel captured).2 := by
  unfold State.applyZero
  generalize s.zeroDelta z path captured = δ
  generalize (s.travel captured).2 = remainder
  simp only
  split
  · next hst =>
    have hst' : s.stc.station = .desync := hst
    refine ⟨by simp [State.becomeActive]; rfl, by simp [State.becomeActive]; rfl, by simp [State.becomeActive]; rfl,
      by simp [State.becomeActive]; rfl, by simp [State.becomeActive]; rfl, ?_, ?_,
      by simp [State.becomeActive]; rfl, fun _ => State.holdsFor_releaseDesyncClaim _⟩
    · rw [State.becomeActive, State.lbi_releaseDesyncClaim]
      rfl
    · rw [State.becomeActive, State.stc_releaseDesyncClaim, if_pos hst']
      rfl
  · next hst =>
    have hst' : s.stc.station ≠ .desync := hst
    refine ⟨rfl, rfl, rfl, rfl, rfl, rfl, ?_, rfl, fun h => absurd h hst'⟩
    rw [if_neg hst']
    rfl

/-- The target of a ZERO and the travel since are the coordinate it leaves (R84). -/
theorem State.coord_add_zeroDelta (s : State) (z : Coord) (path : Nat) (captured : BitVec 32) :
    s.lcu.coord + s.zeroDelta z path captured =
      s.zeroTarget z path + BitVec.ofInt 32 (s.travel captured).1 := by
  unfold State.zeroDelta ofSigned
  ring

/-- The counts since a captured raw count, scaled: the travel and the remainder (R13). -/
theorem State.travel_spec (s : State) (captured : BitVec 32) (hD : 1 ≤ s.cfg.ratioD) :
    (s.lcu.raw - captured).toInt * s.cfg.ratioN =
        (s.travel captured).1 * s.cfg.ratioD + ((s.travel captured).2 : Int) ∧
      (s.travel captured).2 < s.cfg.ratioD := by
  have hpos : (0 : Int) < s.cfg.ratioD := by exact_mod_cast hD
  unfold State.travel
  simp only
  generalize (s.lcu.raw - captured).toInt * (s.cfg.ratioN : Int) = c
  have hmod : c - s.cfg.ratioD * Int.fdiv c s.cfg.ratioD = Int.fmod c s.cfg.ratioD := (Int.fmod_def ..).symm
  have hnonneg := Int.fmod_nonneg_of_pos c hpos
  have hlt := Int.fmod_lt_of_pos c hpos
  have hdef := Int.mul_fdiv_add_fmod c s.cfg.ratioD
  rw [hmod, Int.toNat_of_nonneg hnonneg]
  refine ⟨?_, by omega⟩
  rw [mul_comm (Int.fdiv _ _)]
  exact hdef.symm

/-! ### ZERO frames and loopbacks -/

theorem exec_zeroLoopback {s : State} {b : Loopback} (h : LoopbackNext s .zero b) :
    exec .zeroLoopback s = .next (s.looped.takeOwnZero b).driven :=
  (takeLoopback_next h _ : execZeroLoopback s = _)

/-- Settles O36: the coordinate is the target and the travel, in a frame and in the loopback alike. -/
theorem zeroSetsTheCoordinate : Obligations.ZeroSetsTheCoordinate := by
  intro s hst hD applied
  have happlied : ∀ (t u : State) (origin : Nat) (z : Coord) (path : Nat) (captured : BitVec 32),
      t.lcu = s.lcu → t.stc = s.stc → t.lpt = s.lpt →
      u = t.applyZero origin z path captured → applied u origin z path captured := by
    intro t u origin z path captured hlcu hstc hlpt hu
    have hcfg : t.cfg = s.cfg := by rw [State.cfg, hstc]; rfl
    have hz := t.applyZero_zeroed origin z path captured
    obtain ⟨hscale, hrem⟩ := t.travel_spec captured (by rwa [hcfg])
    have hcoord := t.coord_add_zeroDelta z path captured
    have hδ : t.zeroDelta z path captured =
        t.zeroTarget z path + BitVec.ofInt 32 (t.travel captured).1 - s.lcu.coord := by
      rw [← hcoord, hlcu]
      ring
    have htarget : t.zeroTarget z path = z - BitVec.ofInt 32 ((s.cfg.path : Int) - path) := by
      rw [State.zeroTarget, hcfg]
      rfl
    rw [← hu, hδ] at hz
    rw [hlcu, hcfg] at hscale
    rw [hcfg] at hrem
    refine ⟨(t.travel captured).1, (t.travel captured).2, hscale, hrem, ?_⟩
    simp only
    rw [← htarget]
    generalize t.zeroTarget z path + BitVec.ofInt 32 (t.travel captured).1 = coord at hz
    have hsum : s.lcu.coord + (coord - s.lcu.coord) = coord := by ring
    refine ⟨?_, ?_, fun hd => hz.claim (by rw [hstc]; exact hd), fun hroom => ?_⟩
    · rw [hz.lcu, hlcu, hstc, hsum]
    · rw [hz.stc, hstc]
    · rw [hz.lpt, hlcu, hstc, hlpt, hsum, Lpt.place, if_pos hroom]
  have hon : s.onLine = true := State.onLine_iff.mpr hst
  constructor
  · intro e hnext h1 h24
    refine ⟨s.dequeued.applyZero e.frame.origin _ _ e.raw, ?_, happlied s.dequeued _ _ _ _ _ rfl rfl rfl rfl, ?_⟩
    · rw [exec_zeroFrame hnext, State.takeZero, validStation_iff.mpr ⟨h1, h24⟩,
        if_pos (show s.dequeued.onLine = true from hon)]
      rfl
    · rw [(s.dequeued.applyZero_zeroed ..).lbi]
      rfl
  · intro b hnext
    refine ⟨s.looped.applyZero s.cfg.station _ s.cfg.path b.raw, ?_, happlied s.looped _ _ _ _ _ rfl rfl rfl rfl, ?_⟩
    · rw [exec_zeroLoopback hnext, State.takeOwnZero, if_pos (show s.looped.onLine = true from hon)]
      rfl
    · rw [(s.looped.applyZero_zeroed ..).lbi]
      rfl

/-! ### Distances across a ZERO -/

theorem Four.get_map {α β : Type} (f : Four α) (g : α → β) (i : Fin 4) : (f.map g).get i = g (f.get i) := by
  match i with
  | 0 => rfl
  | 1 => rfl
  | 2 => rfl
  | 3 => rfl

/-- A shifted position keeps its distance from the shifted coordinate. -/
theorem shifted_sub_shifted (p c δ : BitVec 32) : p + δ - (c + δ) = p - c := by ring

/-- Settles O37: block by block, each list mapped by its shift. -/
theorem zeroKeepsDistances : Obligations.ZeroKeepsDistances := by
  intro s origin z path captured u far far'
  have hz := s.applyZero_zeroed origin z path captured
  generalize s.zeroDelta z path captured = δ at hz
  have hfar : ∀ p, far' (p + δ) = far p := fun p => by
    change p + δ - u.lcu.coord = p - s.lcu.coord
    rw [hz.lcu]
    exact shifted_sub_shifted ..
  have hframe : ∀ (f : OutFrame) (cut : (Coord → Coord) → OutFrame → OutFrame),
      (∀ x k n, cut x (.cutover k n) = .cutover (x k) n) → (∀ x f, (∀ k n, f ≠ .cutover k n) → cut x f = f) →
      cut far' (f.shift δ) = cut far f := by
    intro f cut hcut hother
    cases f with
    | cutover k n => simp [OutFrame.shift, hcut, hfar]
    | _ => rw [OutFrame.shift, hother _ _ (by simp), hother _ _ (by simp)]
  refine ⟨?_, ?_, ?_, ?_, ?_, fun n => ?_, fun n => ?_, fun ch stop hwu hstate => ?_, ?_, ?_, ?_⟩
  · rw [hz.mke]
    simp [Mke.shift, MarkRecord.shift, Action.shift, hfar, Function.comp_def]
  · rw [hz.mke]
    simp [Mke.shift, hfar, Function.comp_def]
  · rw [hz.mke]
    simp [Mke.shift, hfar, Function.comp_def]
  · rw [hz.mke]
    refine (List.map_map ..).trans (List.map_congr_left fun e _ => ?_)
    cases e <;> simp [OriginEntry.shift, hfar]
  · rw [hz.lbi]
    have := fun f => hframe f (fun x f => match f with | .cutover k n => .cutover (x k) n | g => g)
      (fun _ _ _ => rfl) (fun x f hf => by cases f <;> simp_all)
    constructor
    · exact (List.map_map ..).trans (List.map_congr_left fun f _ => this f)
    · simp only [Lbi.shift, Option.map_map]
      congr 1
      funext y
      exact congrArg (·, y.failed) (this y.frame)
  · rw [hz.scu]
    simp [Scu.shift, Four.get_map, Window.shift, hfar, Function.comp_def]
  · rw [hz.scu]
    simp [Scu.shift, Four.get_map, hfar, Function.comp_def]
  · refine ⟨stop + δ, ?_, hfar stop⟩
    have hunit : s.unitOf ch = .wu := hwu
    rw [hz.aou, State.get_shiftAou]
    simp only [Channel.shift, hunit, hstate]
  · rw [hz.rmu]
    simp [Rmu.shift, hfar, Function.comp_def]
  · rw [hz.rmu]
    simp [Rmu.shift, hfar, Function.comp_def]
  · rw [hz.rmu]
    rfl

end Sys2Proof.Machine
end

section
/-! CLAIMS frames: the checks, the epoch comparison, and the records they list (R89, R90, R93, R97, R100). -/

namespace Sys2Proof.Machine

/-! ### The content check -/

theorem noRepeats_iff {ns : List Nat} : noRepeats ns = true ↔ ns.Nodup := by
  induction ns with
  | nil => simp [noRepeats]
  | cons n ns ih => simp [noRepeats, ih]

theorem claimsOk_iff {o sender : Nat} {claims : List (Nat × Reason)} : claimsOk o sender claims = true ↔
    1 ≤ o ∧ o ≤ 24 ∧ 1 ≤ sender ∧ sender ≤ 3 ∧
      (∀ c ∈ claims, (c.1 < 3 ∧ (c.2 = .mark ∨ c.2 = .operator)) ∨ (c.1 = 3 ∧ (c.2 = .desync ∨ c.2 = .sight))) ∧
      (claims.map Prod.fst).Nodup := by
  have hfits : ∀ c : Nat × Reason, (c.1 < 4 ∧ reasonFits c.1 c.2 = true) ↔
      (c.1 < 3 ∧ (c.2 = .mark ∨ c.2 = .operator)) ∨ (c.1 = 3 ∧ (c.2 = .desync ∨ c.2 = .sight)) := fun c => by
    rw [← reasonFits_iff]
    exact ⟨And.right, fun h => ⟨lt_four_of_reasonFits h, h⟩⟩
  simp only [claimsOk, Bool.and_eq_true, validStation_iff, within_iff, List.all_eq_true, decide_eq_true_iff,
    noRepeats_iff, hfits]
  tauto

/-! ### Records of other identities -/

theorem filter_insertByKey_of_not {α : Type} (key : α → Nat) (p : α → Bool) {x : α} (hx : p x = false) (ys : List α) :
    (insertByKey key x ys).filter p = ys.filter p := by
  induction ys with
  | nil => simp [insertByKey, hx]
  | cons y ys ih =>
    unfold insertByKey
    split
    · simp only [List.filter_cons, ih]
    · rw [List.filter_cons, hx]
      rfl

/-- A record put in is not seen by what does not look at its identity. -/
theorem filter_putHold_of_not {r : HoldRecord} (p : HoldRecord → Bool)
    (hp : ∀ q : HoldRecord, q.origin = r.origin → q.claim = r.claim → p q = false) (table : List HoldRecord) :
    (putHold r table).filter p = table.filter p := by
  rw [putHold, filter_insertByKey_of_not _ _ (hp r rfl rfl), List.filter_filter]
  refine List.filter_congr fun q _ => ?_
  cases hq : q.is r.origin r.claim with
  | false => simp
  | true =>
    obtain ⟨ho, hn⟩ := HoldRecord.is_iff.mp hq
    simp [hp q ho hn]

theorem filter_foldl_putHold_of_not (p : HoldRecord → Bool) (rs : List HoldRecord) (table : List HoldRecord)
    (hp : ∀ r ∈ rs, ∀ q : HoldRecord, q.origin = r.origin → q.claim = r.claim → p q = false) :
    (rs.foldl (fun t r => putHold r t) table).filter p = table.filter p := by
  induction rs generalizing table with
  | nil => rfl
  | cons r rs ih =>
    rw [List.foldl_cons, ih _ fun q hq => hp q (List.mem_cons_of_mem _ hq),
      filter_putHold_of_not p (hp r List.mem_cons_self)]

/-- Records of different identities, put in one after another, all stay. -/
theorem mem_foldl_putHold {rs : List HoldRecord}
    (hrs : rs.Pairwise fun a b => ¬ (a.origin = b.origin ∧ a.claim = b.claim))
    (q : HoldRecord) (table : List HoldRecord) :
    q ∈ rs.foldl (fun t r => putHold r t) table ↔
      q ∈ rs ∨ (q ∈ table ∧ ∀ r ∈ rs, ¬ (q.origin = r.origin ∧ q.claim = r.claim)) := by
  induction rs generalizing table with
  | nil => simp
  | cons r rs ih =>
    obtain ⟨hr, hrest⟩ := List.pairwise_cons.mp hrs
    rw [List.foldl_cons, ih hrest, mem_putHold]
    constructor
    · rintro (hq | ⟨rfl | ⟨hq, hne⟩, hall⟩)
      · exact .inl (List.mem_cons_of_mem _ hq)
      · exact .inl List.mem_cons_self
      · exact .inr ⟨hq, List.forall_mem_cons.mpr ⟨hne, hall⟩⟩
    · rintro (hq | ⟨hq, hall⟩)
      · rcases List.mem_cons.mp hq with rfl | hq
        · exact .inr ⟨.inl rfl, hr⟩
        · exact .inl hq
      · obtain ⟨hne, hall⟩ := List.forall_mem_cons.mp hall
        exact .inr ⟨.inr ⟨hq, hne⟩, hall⟩

/-! ### The records of one origin -/

/-- A record is looked up among those of its origin. -/
theorem Htu.find_eq_find_of (h : Htu) (o n : Nat) : h.find o n = (h.of o).find? (fun q => q.is o n) := by
  rw [Htu.of, List.find?_filter]
  refine congrArg (fun p => List.find? p h.table) (funext fun q => ?_)
  cases hq : q.is o n with
  | false => simp
  | true => simp [(HoldRecord.is_iff.mp hq).1]

/-- Claim 3 taken concerns this station's records alone. -/
theorem State.of_takeDesyncClaim {s : State} {o : Nat} (ho : o ≠ s.cfg.station) :
    s.takeDesyncClaim.htu.of o = s.htu.of o := by
  unfold State.takeDesyncClaim
  split
  · rfl
  · refine filter_putHold_of_not _ (fun q hq _ => ?_) s.htu.table
    rw [hq, beq_eq_false_iff_ne]
    exact ho.symm

/-- The records of other stations are not concerned by an entry to DESYNC. -/
theorem State.of_desyncBlocks {s : State} {o : Nat} (ho : o ≠ s.cfg.station) :
    s.desyncBlocks.htu.of o = s.htu.of o :=
  State.of_takeDesyncClaim (s := ((((s.setStation .desync).withScu _).withAou _).withRmu _)) ho

/-! ### The claims a CLAIMS frame lists -/

/-- What the claims of a CLAIMS frame of `o` leave: its records are those listed, its origin is heard, and CLAIM
REVIVED counts the STALE ones (R100). -/
structure ClaimsListed (s u : State) (o : Nat) (claims : List (Nat × Reason)) : Prop where
  frame : u = (s.withHtu u.htu).withLpt u.lpt
  of : ∀ r : HoldRecord, r.origin = o → (r ∈ u.htu.table ↔ r.stale = false ∧ (r.claim, r.reason) ∈ claims ∧
    r.ref = match s.htu.find o r.claim with
      | some q => if q.reason = r.reason then q.ref else none
      | none => none)
  others : ∀ k, k ≠ o → u.htu.of k = s.htu.of k
  heard : u.htu.lastHeard = modifyAt (fun _ => some s.stc.now) (o - 1) s.htu.lastHeard
  lpt : u.lpt = (if s.htu.revivedBy o claims = 0 then s
    else s.notice .claimRevived (some o) none (some (BitVec.ofNat 32 (s.htu.revivedBy o claims)))).lpt

theorem State.takeClaimList_listed (s : State) (o : Nat) {claims : List (Nat × Reason)}
    (hnodup : (claims.map Prod.fst).Nodup) : ClaimsListed s (s.takeClaimList o claims) o claims := by
  have hpair : (claims.map (s.htu.listed o)).Pairwise fun a b => ¬ (a.origin = b.origin ∧ a.claim = b.claim) := by
    rw [List.pairwise_map]
    refine (List.pairwise_map.mp hnodup).imp fun hne => ?_
    rintro ⟨-, h⟩
    exact hne h
  have htu : (s.takeClaimList o claims).htu = ({ s.htu with
      table := (claims.map (s.htu.listed o)).foldl (fun t r => putHold r t)
        (s.htu.table.filter (fun r => r.origin != o)) } : Htu).hear o s.stc.now := by
    unfold State.takeClaimList
    simp only
    split <;> rfl
  refine ⟨?_, fun r hr => ?_, fun k hk => ?_, ?_, ?_⟩
  · unfold State.takeClaimList
    simp only
    split <;> rfl
  · rw [htu]
    simp only [Htu.hear]
    rw [mem_foldl_putHold hpair, List.mem_map]
    constructor
    · rintro (⟨c, hc, rfl⟩ | ⟨hmem, -⟩)
      · exact ⟨rfl, hc, rfl⟩
      · rw [List.mem_filter] at hmem
        simp [hr] at hmem
    · rintro ⟨hstale, hmem, href⟩
      refine .inl ⟨_, hmem, ?_⟩
      obtain ⟨origin, claim, reason, ref, stale⟩ := r
      simp only at hr hstale href
      rw [href, hr, hstale]
      rfl
  · rw [htu]
    simp only [Htu.hear, Htu.of]
    rw [filter_foldl_putHold_of_not, List.filter_filter]
    · refine List.filter_congr fun q _ => ?_
      by_cases hq : q.origin = k
      · simp [hq, hk]
      · simp [hq]
    · rintro r hr q hq -
      obtain ⟨c, -, rfl⟩ := List.mem_map.mp hr
      rw [hq, beq_eq_false_iff_ne]
      exact hk.symm
  · rw [htu]
    rfl
  · unfold State.takeClaimList
    simp only
    split <;> rfl

/-- Membership follows the records of an origin. -/
theorem Htu.mem_table_iff_of {h h' : Htu} {r : HoldRecord} (hof : h.of r.origin = h'.of r.origin) :
    r ∈ h.table ↔ r ∈ h'.table := by
  have hmem : ∀ x : Htu, r ∈ x.of r.origin ↔ r ∈ x.table := fun x => by simp [Htu.of]
  rw [← hmem h, hof, hmem h']

/-! ### The epoch comparison -/

/-- What the epoch comparison of a CLAIMS frame leaves outside an entry to DESYNC (R89, R90, R93). -/
structure EpochCompared (s t : State) (o : Nat) (e : Epoch) (sender : Nat) : Prop where
  frame : t = ((s.withLcu t.lcu).withStc t.stc).withLpt t.lpt
  lcu : t.lcu = if s.stc.station = .joining ∧ sender = 2 ∧ s.lcu.joinSync = .adopting then { s.lcu with epoch := e }
    else if s.stc.station = .joining ∧ (sender = 2 ∧ 1 ≤ s.epochDiff e ∧ s.epochDiff e ≤ 127) ∧
      s.lcu.joinSync = .zeroed then { s.lcu with joinSync := .lagging }
    else if s.stc.station = .desync ∧ (sender = 2 ∧ 1 ≤ s.epochDiff e ∧ s.epochDiff e ≤ 127)
      then { s.lcu with epoch := e, deltaPrev := none }
    else s.lcu
  stc : t.stc = if s.stc.station = .joining ∧ (sender = 2 ∧ 1 ≤ s.epochDiff e ∧ s.epochDiff e ≤ 127) ∧
      s.lcu.joinSync = .zeroed then { s.stc with fault := some ⟨.epochAhead, s.stc.now, o⟩ } else s.stc
  lpt : t.lpt = (if s.stc.station = .joining ∧ (sender = 2 ∧ 1 ≤ s.epochDiff e ∧ s.epochDiff e ≤ 127) ∧
      s.lcu.joinSync = .zeroed then
        s.notice .epochAhead (some o) none (some (BitVec.ofNat 32 (s.epochDiff e))) else s).lpt

theorem State.joinEpoch_compared {s : State} (o : Nat) (e : Epoch) (hst : s.stc.station = .joining) :
    EpochCompared s (s.joinEpoch o e) o e 2 := by
  unfold State.joinEpoch
  cases hsync : s.lcu.joinSync with
  | adopting =>
    refine ⟨rfl, ?_, ?_, ?_⟩ <;> simp [hst, hsync]
  | lagging => refine ⟨rfl, ?_, ?_, ?_⟩ <;> simp [hst, hsync]
  | zeroed =>
    by_cases hd : within 1 127 (s.epochDiff e) = true
    · have hahead : s.stc.station = .joining ∧ (2 = 2 ∧ 1 ≤ s.epochDiff e ∧ s.epochDiff e ≤ 127) ∧
          s.lcu.joinSync = .zeroed := ⟨hst, ⟨rfl, within_iff.mp hd⟩, hsync⟩
      simp only [if_pos hd]
      refine ⟨rfl, ?_, ?_, ?_⟩
      · rw [if_neg (by simp [hsync]), if_pos hahead]
        rfl
      · rw [if_pos hahead]
        rfl
      · rw [if_pos hahead]
        rfl
    · have hnot : ¬ (s.stc.station = .joining ∧ (2 = 2 ∧ 1 ≤ s.epochDiff e ∧ s.epochDiff e ≤ 127) ∧
          s.lcu.joinSync = .zeroed) := fun ⟨_, ⟨_, hd'⟩, _⟩ => hd (within_iff.mpr hd')
      simp only [if_neg hd]
      refine ⟨rfl, ?_, ?_, ?_⟩
      · rw [if_neg (by simp [hsync]), if_neg hnot, if_neg (by simp [hst])]
      · rw [if_neg hnot]
      · rw [if_neg hnot]

theorem State.adoptEpoch_compared {s : State} (o : Nat) (e : Epoch) (hst : s.stc.station = .desync) :
    EpochCompared s (s.adoptEpoch e) o e 2 := by
  unfold State.adoptEpoch
  by_cases hd : within 1 127 (s.epochDiff e) = true
  · rw [if_pos hd]
    refine ⟨rfl, ?_, (if_neg (by simp [hst])).symm, ?_⟩
    · rw [if_neg (by simp [hst]), if_neg (by simp [hst]), if_pos ⟨hst, rfl, within_iff.mp hd⟩]
      rfl
    · rw [if_neg (by simp [hst])]
      rfl
  · rw [if_neg hd]
    refine ⟨rfl, ?_, (if_neg (by simp [hst])).symm, ?_⟩
    · rw [if_neg (by simp [hst]), if_neg (by simp [hst]), if_neg fun ⟨_, _, hd'⟩ => hd (within_iff.mpr hd')]
    · rw [if_neg (by simp [hst])]

/-- Outside an entry to DESYNC the epoch is compared and then the claims are taken. -/
theorem State.compareClaims_of_not_ahead {s : State} (n : NoticeOrder) (o : Nat) (e : Epoch) (sender : Nat)
    (claims : List (Nat × Reason))
    (h : ¬ (s.stc.station = .active ∧ sender = 2 ∧ 1 ≤ s.epochDiff e ∧ s.epochDiff e ≤ 127)) :
    ∃ t, EpochCompared s t o e sender ∧ s.compareClaims n o e sender claims = t.takeClaimList o claims := by
  have hsame : s.stc.station ≠ .joining ∧ s.stc.station ≠ .desync ∨ sender ≠ 2 → EpochCompared s s o e sender := by
    rintro (⟨hj, hd⟩ | hs)
    · refine ⟨rfl, ?_, ?_, ?_⟩ <;> simp [hj, hd]
    · refine ⟨rfl, ?_, ?_, ?_⟩ <;> simp [hs]
  unfold State.compareClaims
  by_cases hs : sender = 2
  · subst hs
    cases hst : s.stc.station with
    | active =>
      have hd : ¬ within 1 127 (s.epochDiff e) = true := fun hd => h ⟨hst, rfl, within_iff.mp hd⟩
      exact ⟨s, hsame (.inl (by simp [hst])), by simp [hd]⟩
    | joining => exact ⟨_, State.joinEpoch_compared o e hst, by simp⟩
    | desync => exact ⟨_, State.adoptEpoch_compared o e hst, by simp⟩
    | silent => exact ⟨s, hsame (.inl (by simp [hst])), by simp⟩
    | unconfigured => exact ⟨s, hsame (.inl (by simp [hst])), by simp⟩
  · exact ⟨s, hsame (.inr hs), by simp [hs]⟩

theorem State.compareClaims_of_ahead {s : State} (n : NoticeOrder) (o : Nat) {e : Epoch} (claims : List (Nat × Reason))
    (hst : s.stc.station = .active) (hlow : 1 ≤ s.epochDiff e) (hhigh : s.epochDiff e ≤ 127) :
    s.compareClaims n o e 2 claims =
      ((s.enterDesync n (fun t => t.epochAhead o none (s.epochDiff e))).takeClaimList o claims).clearSync := by
  have hd : within 1 127 (s.epochDiff e) = true := within_iff.mpr ⟨hlow, hhigh⟩
  simp [State.compareClaims, hst, hd]

/-! ### CLAIMS frames -/

theorem exec_claimsFrame {s : State} {e : InEntry} (n : NoticeOrder) (h : FrameNext s .claims e) :
    exec (.claimsFrame n) s = .next (s.dequeued.takeClaims n e).driven :=
  (takeFrame_next h _ : execClaimsFrame n s = _)

theorem Htu.revivedBy_eq (h : Htu) (o : Nat) (claims : List (Nat × Reason)) : h.revivedBy o claims =
    (h.table.filter (fun r => r.origin == o && r.stale && (claims.map Prod.fst).contains r.claim)).length := by
  rw [Htu.revivedBy, Htu.of, List.filter_filter]
  refine congrArg List.length (List.filter_congr fun r _ => ?_)
  have hany : (claims.any fun c => c.1 == r.claim) = (claims.map Prod.fst).contains r.claim := by
    rw [List.contains_eq_any_beq, List.any_map]
    refine congrArg claims.any (funext fun c => ?_)
    exact Bool.beq_comm
  rw [hany]
  cases r.origin == o <;> simp

/-- The claims another station lists leave the own ones held as they were. -/
theorem ClaimsListed.holdsFor {s u : State} {o : Nat} {claims : List (Nat × Reason)} (h : ClaimsListed s u o claims)
    (ho : o ≠ s.cfg.station) (n : Nat) (k : Reason) : u.holdsFor n k = s.holdsFor n k := by
  have hcfg : u.cfg = s.cfg := by
    rw [h.frame]
    rfl
  unfold State.holdsFor
  rw [hcfg, Htu.find_eq_find_of, h.others _ ho.symm, ← Htu.find_eq_find_of]

/-- The claims listed after an entry to DESYNC leave its effect. -/
theorem ClaimsListed.entersDesync {s v w : State} {o : Nat} {claims : List (Nat × Reason)}
    (h : ClaimsListed v w o claims) (ho : o ≠ v.cfg.station) (he : EntersDesync s v.clearSync) :
    EntersDesync s w.clearSync := by
  have hclaim : w.clearSync.holdsFor 3 .desync = v.clearSync.holdsFor 3 .desync := h.holdsFor ho 3 .desync
  rw [h.frame] at hclaim ⊢
  exact ⟨he.lcu, he.mke, he.channels, he.edges, he.scu, he.rmu, hclaim.trans he.claim, he.census⟩

/-- Two states that place a notice alike. -/
theorem State.lpt_notice_congr {s t : State} (hlpt : s.lpt = t.lpt) (hnow : s.stc.now = t.stc.now)
    (hsync : s.lcu.synced = t.lcu.synced) (hcoord : s.lcu.coord = t.lcu.coord) (k : NoticeKind) (o : Option Nat)
    (m : Option MarkNo) (v : Option (BitVec 32)) : (s.notice k o m v).lpt = (t.notice k o m v).lpt := by
  simp only [State.notice, State.lpt_withLpt, State.makeNotice, hlpt, hnow, hsync, hcoord]

/-- CLAIM REVIVED placed from another state with the same notices. -/
theorem ClaimsListed.lpt_eq {s t u : State} {o : Nat} {claims : List (Nat × Reason)} (h : ClaimsListed s u o claims)
    (hlpt : s.lpt = t.lpt) (hnow : s.stc.now = t.stc.now) (hsync : s.lcu.synced = t.lcu.synced)
    (hcoord : s.lcu.coord = t.lcu.coord) {count : Nat} (hcount : s.htu.revivedBy o claims = count) :
    u.lpt = (if count = 0 then t
      else t.notice .claimRevived (some o) none (some (BitVec.ofNat 32 count))).lpt := by
  rw [h.lpt, hcount]
  split
  · exact hlpt
  · exact State.lpt_notice_congr hlpt hnow hsync hcoord ..

theorem ClaimsListed.slot {s u : State} {o : Nat} {claims : List (Nat × Reason)} (h : ClaimsListed s u o claims) :
    u.lpt.slot = s.lpt.slot := by
  rw [h.lpt]
  split
  · rfl
  · exact Lpt.slot_place ..

/-- An entry to DESYNC for a missed ZERO, taken from a frame of `o`, the synchronised flag still up. -/
structure MissedZero (s v : State) (n : NoticeOrder) (o d : Nat) : Prop where
  enters : EntersDesync s v.clearSync
  stc : v.stc = { s.stc with station := .desync, fault := some ⟨.epochAhead, s.stc.now, o⟩ }
  lpt : v.lpt = (inOrder n (fun t => t.notice .epochAhead (some o) none (some (BitVec.ofNat 32 d)))
    (fun t => t.notice .queueEmptied none none
      (some (BitVec.ofNat 32 (s.mke.queue.length + (s.mke.spill.map Spill.count).getD 0)))) s).lpt
  lcu : v.lcu = s.lcu
  of : ∀ k, k ≠ s.cfg.station → v.htu.of k = s.htu.of k
  heard : v.htu.lastHeard = s.htu.lastHeard
  inbound : v.lbi.inbound = s.lbi.inbound.tail
  pins : v.pins = s.pins

theorem State.missedZero (s : State) (n : NoticeOrder) (o d : Nat) :
    MissedZero s (s.dequeued.enterDesync n fun t => t.epochAhead o none d) n o d := by
  have hblocks := State.desyncBlocks_eq (inOrder n (fun t => t.epochAhead o none d) State.emptyQueue s.dequeued)
  refine ⟨State.enterDesync_enters (causeOfDesync_epochAhead o none d) n hblocks rfl rfl rfl rfl rfl rfl,
    hblocks.stc.trans ?_, hblocks.lpt.trans ?_, hblocks.lcu.trans ?_, fun k hk => (State.of_desyncBlocks ?_).trans ?_,
    (congrArg Htu.lastHeard hblocks.htu).trans ?_, (congrArg Lbi.inbound hblocks.lbi).trans ?_, hblocks.pins.trans ?_⟩
  case refine_2 => cases n <;> (simp only [inOrder, State.emptyQueue_eq]; rfl)
  case refine_4 => cases n <;> exact hk
  all_goals cases n <;> rfl

/-- The slot does not see the notices placed with an entry to DESYNC. -/
theorem MissedZero.slot {s v : State} {n : NoticeOrder} {o d : Nat} (h : MissedZero s v n o d) :
    v.lpt.slot = s.lpt.slot := by
  rw [h.lpt]
  cases n <;> exact (Lpt.slot_place ..).trans (Lpt.slot_place ..)

/-- Settles O41. -/
theorem claimsFrameReplacesTheRecords : Obligations.ClaimsFrameReplacesTheRecords := by
  intro n s e hnext o epoch sender claims d ahead listed heard fault late emptied count revived fits good
  rw [exec_claimsFrame n hnext]
  have hgood : claimsOk o sender claims = true ↔ good := claimsOk_iff
  have hcount : count = s.htu.revivedBy o claims := (s.htu.revivedBy_eq o claims).symm
  refine ⟨fun hbad => ?_, fun hok hown => ?_⟩
  · have hfail : s.dequeued.takeClaims n e = s.dequeued.claimInvalid e.frame := if_neg (mt hgood.mp hbad)
    rw [hfail, State.claimInvalid_eq hnext.kind]
    rfl
  have htake : s.dequeued.takeClaims n e = s.dequeued.compareClaims n o epoch sender claims :=
    if_pos (hgood.mpr hok)
  obtain ⟨-, -, -, -, -, hnodup⟩ := hok
  rw [htake]
  refine ⟨_, rfl, ?_⟩
  by_cases hahead : s.stc.station = .active ∧ ahead
  · obtain ⟨hst, hsender, hlow, hhigh⟩ := id hahead
    have heq : s.dequeued.compareClaims n o epoch sender claims =
        ((s.dequeued.enterDesync n fun t => t.epochAhead o none d).takeClaimList o claims).clearSync := by
      rw [hsender]
      exact State.compareClaims_of_ahead (s := s.dequeued) n o claims hst hlow hhigh
    rw [heq]
    have hv := s.missedZero n o d
    generalize s.dequeued.enterDesync n (fun t => t.epochAhead o none d) = v at hv
    have hl := v.takeClaimList_listed o hnodup
    refine ⟨fun r hr => ?_, ?_, ?_, ?_, ?_, fun _ => ⟨?_, ?_, ?_⟩, fun h => absurd hahead h⟩
    · have hof := hl.of r hr
      rw [Htu.find_eq_find_of, hv.of o hown, ← Htu.find_eq_find_of] at hof
      exact hof
    · rw [State.htu_clearSync, hl.heard, hv.heard, hv.stc]
    · rw [hl.frame]
      exact hv.pins
    · rw [State.lpt_clearSync, hl.slot, hv.slot]
    · rw [hl.frame]
      exact hv.inbound
    · exact hl.entersDesync (by rw [State.cfg, hv.stc]; exact hown) hv.enters
    · rw [hl.frame]
      exact hv.stc
    · refine hl.lpt_eq (hv.lpt.trans (by cases n <;> rfl)) ?_ ?_ ?_ ?_
      · rw [hv.stc]
        cases n <;> rfl
      · rw [hv.lcu]
        cases n <;> rfl
      · rw [hv.lcu]
        cases n <;> rfl
      · rw [hcount, Htu.revivedBy, hv.of o hown]
        rfl
  · obtain ⟨t, ht, heq⟩ := State.compareClaims_of_not_ahead (s := s.dequeued) n o epoch sender claims hahead
    rw [heq]
    have hl := t.takeClaimList_listed o hnodup
    have hthtu : t.htu = s.htu := by rw [ht.frame]; rfl
    have htnow : t.stc.now = s.stc.now := by rw [ht.stc]; split <;> rfl
    have hsynced : t.lcu.synced = s.lcu.synced := by rw [ht.lcu]; split_ifs <;> rfl
    have hcoord : t.lcu.coord = s.lcu.coord := by rw [ht.lcu]; split_ifs <;> rfl
    have hplaced : t.lpt = (if s.stc.station = .joining ∧ ahead ∧ s.lcu.joinSync = .zeroed then late s else s).lpt := by
      by_cases hlate : s.stc.station = .joining ∧ ahead ∧ s.lcu.joinSync = .zeroed
      · rw [if_pos hlate, ht.lpt]
        split
        · rfl
        · next h => exact absurd hlate h
      · rw [if_neg hlate, ht.lpt]
        split
        · next h => exact absurd h hlate
        · rfl
    have hlpt := hl.lpt_eq hplaced (htnow.trans (by split <;> rfl)) (hsynced.trans (by split <;> rfl))
      (hcoord.trans (by split <;> rfl)) ((congrArg (Htu.revivedBy · o claims) hthtu).trans hcount.symm)
    refine ⟨fun r hr => ?_, ?_, ?_, ?_, ?_, fun h => absurd h hahead,
      fun _ => ⟨fun r hr => ?_, ?_, ?_, hlpt, ?_, ?_, ?_, ?_, ?_⟩⟩
    · have hof := hl.of r hr
      rw [hthtu] at hof
      exact hof
    · rw [hl.heard, hthtu, htnow]
    · rw [hl.frame, ht.frame]
      rfl
    · rw [hl.slot, hplaced]
      split
      · exact Lpt.slot_place ..
      · rfl
    · rw [hl.frame, ht.frame]
      rfl
    · exact (Htu.mem_table_iff_of (hl.others _ hr)).trans (by rw [hthtu])
    · rw [hl.frame]
      exact ht.lcu
    · rw [hl.frame]
      exact ht.stc
    all_goals
      rw [hl.frame, ht.frame]
      rfl

end Sys2Proof.Machine
end

section
/-! What a close leaves at the Roll Map Unit, and the CUTOVER frames and CUT edges that make one (R122, R123, R129,
R130). -/

namespace Sys2Proof.Machine

/-! ### Roll sets but for their entries -/

/-- A roll set without its entries and what drops them. -/
def RollSet.frame (r : RollSet) : RollSet := { r with overflow := false, dropped := 0, entries := [] }

/-- The roll sets without the entries of those being wound. -/
def Rmu.frame (r : Rmu) : Rmu := { r with current := r.current.map RollSet.frame, next := r.next.map RollSet.frame }

theorem RollSet.frame_iff {r q : RollSet} : r.frame = q.frame ↔ r.number = q.number ∧ r.start = q.start ∧
    r.cut = q.cut ∧ r.followed = q.followed ∧ r.uncertain = q.uncertain ∧ r.interrupted = q.interrupted := by
  simp [RollSet.frame]

/-- Roll sets alike but for entries. -/
theorem Rmu.frame_eq {a b : Rmu} (h : a.frame = b.frame) : a.closed = b.closed ∧ a.nextSet = b.nextSet ∧
    a.pendingRead = b.pendingRead ∧ a.current.map RollSet.frame = b.current.map RollSet.frame ∧
    a.next.map RollSet.frame = b.next.map RollSet.frame := by
  simp only [Rmu.frame, Rmu.mk.injEq] at h
  tauto

@[simp] theorem State.frame_dropEntry (s : State) (r : RollSet) (e : RollEntry) :
    (s.dropEntry r e).2.frame = r.frame := rfl

@[simp] theorem State.frame_enter (s : State) (r : RollSet) (e : RollEntry) : (s.enter r e).2.frame = r.frame := by
  unfold State.enter
  split
  · rfl
  · rfl

@[simp] theorem State.frame_enterAll (es : List RollEntry) (s : State) (r : RollSet) :
    (s.enterAll r es).2.frame = r.frame := by
  induction es generalizing s r with
  | nil => rfl
  | cons e es ih => exact (ih _ _).trans (s.frame_enter r e)

@[simp] theorem State.frame_dropAll (es : List RollEntry) (s : State) (r : RollSet) :
    (s.dropAll r es).2.frame = r.frame := by
  induction es generalizing s r with
  | nil => rfl
  | cons e es ih => exact ih _ _

/-! ### What marks that enter the queue leave -/

/-- Sensors and outputs stand, and of the roll sets all but the entries. -/
structure QueueFrame (s t : State) : Prop where
  scu : t.scu = s.scu
  aou : t.aou = s.aou
  sets : t.rmu.frame = s.rmu.frame

namespace QueueFrame

theorem refl (s : State) : QueueFrame s s := ⟨rfl, rfl, rfl⟩

theorem trans {s t u : State} (h : QueueFrame s t) (k : QueueFrame t u) : QueueFrame s u :=
  ⟨k.scu.trans h.scu, k.aou.trans h.aou, k.sets.trans h.sets⟩

theorem of_eq {s t : State} (hscu : t.scu = s.scu) (haou : t.aou = s.aou) (hrmu : t.rmu = s.rmu) : QueueFrame s t :=
  ⟨hscu, haou, congrArg Rmu.frame hrmu⟩

theorem withMke (s : State) (m : Mke) : QueueFrame s (s.withMke m) := ⟨rfl, rfl, rfl⟩

theorem foldl {α : Type} {f : State → α → State} (hf : ∀ t a, QueueFrame t (f t a)) (xs : List α) (s : State) :
    QueueFrame s (xs.foldl f s) :=
  foldl_kept (QueueFrame s) (fun t a h => h.trans (hf t a)) xs (refl s)

/-- An entry put into a set that is held where it was taken. -/
theorem enter {s : State} {r : RollSet} {hold : RollSet → Rmu → Rmu} (e : RollEntry)
    (hhold : ∀ q : RollSet, q.frame = r.frame → (hold q s.rmu).frame = s.rmu.frame) :
    QueueFrame s ((s.enter r e).1.withRmu (hold (s.enter r e).2 (s.enter r e).1.rmu)) := by
  have hsame : (s.enter r e).1.scu = s.scu ∧ (s.enter r e).1.aou = s.aou := by
    unfold State.enter State.dropEntry
    split
    · exact ⟨rfl, rfl⟩
    · simp only
      split <;> simp
  refine ⟨hsame.1, hsame.2, ?_⟩
  rw [State.rmu_withRmu, State.rmu_enter]
  exact hhold _ (s.frame_enter r e)

theorem recordEntry (s : State) (h : RecordHandoff) : QueueFrame s (s.recordEntry h) := by
  have hcurrent : ∀ cur, s.rmu.current = some cur → ∀ q : RollSet, q.frame = cur.frame →
      ({ s.rmu with current := some q } : Rmu).frame = s.rmu.frame := fun cur hc q hq => by simp [Rmu.frame, hc, hq]
  have hnext : ∀ nxt, s.rmu.next = some nxt → ∀ q : RollSet, q.frame = nxt.frame →
      ({ s.rmu with next := some q } : Rmu).frame = s.rmu.frame := fun nxt hn q hq => by simp [Rmu.frame, hn, hq]
  unfold State.recordEntry
  split
  · exact refl s
  · next cur hc =>
    split
    · next cut nxt _ hn =>
      split
      · exact enter (hold := fun q r => { r with next := some q }) _ (hnext nxt hn)
      · exact enter (hold := fun q r => { r with current := some q }) _ (hcurrent cur hc)
    · exact enter (hold := fun q r => { r with current := some q }) _ (hcurrent cur hc)

theorem lateAction (s : State) (r : MarkRecord) (ia : Nat × Action) : QueueFrame s (s.lateAction r ia) := by
  have hset : ∀ t a, QueueFrame s t → QueueFrame s (t.setAction r.uid ia.1 a) := fun t a h => ⟨h.scu, h.aou, h.sets⟩
  unfold State.lateAction State.fireHold State.fireRecord
  split
  · split
    · split <;> exact of_eq (by simp) (by simp) (by simp)
    · refine hset _ _ ?_
      split
      · exact recordEntry s _
      · exact refl s
    all_goals exact hset _ _ (refl s)
  · exact refl s

theorem enterRecord (s : State) (r : MarkRecord) : QueueFrame s (s.enterRecord r) := by
  unfold State.enterRecord
  simp only
  split
  · exact withMke s _
  · refine trans ?_ (of_eq (State.scu_examineRecord ..) (State.aou_examineRecord ..) (State.rmu_examineRecord ..))
    refine trans ?_ (of_eq (State.scu_noticeMark ..) (State.aou_noticeMark ..) (State.rmu_noticeMark ..))
    refine trans ?_ (foldl (fun t ia => lateAction t r ia) _ _)
    exact withMke s _

theorem admitMark (s : State) (o : MarkOffer) : QueueFrame s (s.admitMark o).1 := by
  unfold State.admitMark State.foldSpill
  split
  · exact refl s
  · split
    · simp only
      split <;> exact of_eq (by simp) (by simp) (by simp)
    · exact enterRecord s _

theorem settleLoop (n : Nat) (s : State) : QueueFrame s (settleLoop n s) := by
  induction n generalizing s with
  | zero => exact withMke s _
  | succ n ih =>
    unfold Machine.settleLoop
    split
    · exact refl s
    · split
      · exact withMke s _
      · exact ((withMke s _).trans (admitMark _ _)).trans (ih _)

theorem settleSpill (s : State) : QueueFrame s s.settleSpill := by
  unfold State.settleSpill
  split
  · split
    · exact refl s
    · exact withMke s _
  · exact settleLoop _ s

end QueueFrame

@[simp] theorem State.scu_settleSpill (s : State) : s.settleSpill.scu = s.scu := (QueueFrame.settleSpill s).scu
@[simp] theorem State.aou_settleSpill (s : State) : s.settleSpill.aou = s.aou := (QueueFrame.settleSpill s).aou

/-! ### What a pulse asked for leaves -/

section Pulses

variable (s : State)

/-- The report of an ended pulse concerns the Mark Engine alone. -/
theorem State.pulseEnded_eq (ch : Fin 4) : s.pulseEnded ch = s.withMke (s.pulseEnded ch).mke := by
  refine foldl_kept (fun t => t = s.withMke t.mke) (fun t u h => ?_) _ rfl
  unfold State.examineRecord
  split
  · rw [h]
    rfl
  · exact h

theorem State.reportEnd_eq (ch : Fin 4) : s.reportEnd ch = s.withMke (s.reportEnd ch).mke := by
  unfold State.reportEnd
  split
  · exact s.pulseEnded_eq ch
  · rfl

@[simp] theorem State.rmu_reportEnd (ch : Fin 4) : (s.reportEnd ch).rmu = s.rmu := by
  rw [State.reportEnd_eq]
  rfl
@[simp] theorem State.scu_reportEnd (ch : Fin 4) : (s.reportEnd ch).scu = s.scu := by
  rw [State.reportEnd_eq]
  rfl

@[simp] theorem State.rmu_pulseRequest (ch : Fin 4) (b : Coord) (w : Nat) (m : Option MarkRef) :
    (s.pulseRequest ch b w m).rmu = s.rmu := by
  unfold State.pulseRequest
  simp only
  split
  · split <;> simp
  · simp
  · simp
@[simp] theorem State.scu_pulseRequest (ch : Fin 4) (b : Coord) (w : Nat) (m : Option MarkRef) :
    (s.pulseRequest ch b w m).scu = s.scu := by
  unfold State.pulseRequest
  simp only
  split
  · split <;> simp
  · simp
  · simp

@[simp] theorem State.scu_cutPulse (k : Coord) : (s.cutPulse k).scu = s.scu := by
  unfold State.cutPulse
  split <;> simp

theorem State.rmuFrame_cutPulse (k : Coord) : (s.cutPulse k).rmu.frame = s.rmu.frame := by
  unfold State.cutPulse
  split
  · rw [(QueueFrame.settleSpill _).sets, State.rmu_pulseRequest]
  · rfl

end Pulses

/-! ### Closes -/

/-- A close of `cur` at `k` with `fol` following, from `s`. -/
structure Closes (s u : State) (cur fol : RollSet) (k : Coord) (own : Bool) : Prop where
  current : ∃ f, u.rmu.current = some f ∧ f.frame = fol.frame
  next : u.rmu.next = none
  nextSet : u.rmu.nextSet = s.rmu.nextSet
  closed : ∃ c ∈ u.rmu.closed,
    c.set = { cur with cut := some k, entries := cur.entries.filterMap (keptPart (endLength cur.start k)) } ∧
    c.endLength = endLength cur.start k ∧ c.epoch = s.lcu.epoch ∧ (own = false → c.announcement = .none)
  scu : u.scu = s.scu
  frame : WebFrame s u

theorem State.mem_appendClosed (s : State) (c : ClosedSet) : c ∈ (s.appendClosed c).rmu.closed := by
  unfold State.appendClosed
  split
  · split <;> simp
  · simp

theorem State.closeAt_frame (s : State) (cur fol : RollSet) (k : Coord) : (s.closeAt cur fol k).2.2.frame = fol.frame :=
  State.frame_dropAll ..

/-- An announcement keeps the closed sets but for their announcements. -/
theorem State.mem_announceClose {s : State} {c : ClosedSet} (hc : c ∈ s.rmu.closed) (n : Nat) (k : Coord)
    (own : Bool) : ∃ a, { c with announcement := a } ∈ (s.announceClose n k own).rmu.closed ∧
      (own = false → a = c.announcement) := by
  have hannounce : ∀ (t : State) (a : Announcement), t.rmu.closed = s.rmu.closed →
      ∃ x, { c with announcement := x } ∈ (t.announce n a).rmu.closed := by
    intro t a ht
    refine ⟨if c.set.number = n then a else c.announcement, List.mem_map.mpr ⟨c, ht ▸ hc, ?_⟩⟩
    split <;> rfl
  unfold State.announceClose
  cases own with
  | false => exact ⟨c.announcement, hc, fun _ => rfl⟩
  | true =>
    simp only [Bool.true_and, Bool.true_eq_false, false_implies, and_true]
    split
    · split
      · exact hannounce (s.withLbi _) .queued rfl
      · exact hannounce s .notSent rfl
    · exact ⟨c.announcement, hc⟩

/-- An announcement changes the closed sets alone at the Roll Map Unit. -/
theorem State.rmu_announceClose (s : State) (n : Nat) (k : Coord) (own : Bool) :
    ∃ cs, (s.announceClose n k own).rmu = { s.rmu with closed := cs } := by
  unfold State.announceClose
  split
  · split
    · exact ⟨_, rfl⟩
    · exact ⟨_, rfl⟩
  · exact ⟨_, rfl⟩

theorem State.scu_dropAll (es : List RollEntry) (s : State) (r : RollSet) : (s.dropAll r es).1.scu = s.scu := by
  induction es generalizing s r with
  | nil => rfl
  | cons e es ih =>
    refine (ih _ _).trans ?_
    split <;> simp

theorem State.scu_appendClosed (s : State) (c : ClosedSet) : (s.appendClosed c).scu = s.scu := by
  unfold State.appendClosed
  split
  · split <;> simp
  · rfl

theorem State.scu_announceClose (s : State) (n : Nat) (k : Coord) (own : Bool) :
    (s.announceClose n k own).scu = s.scu := by
  unfold State.announceClose
  split
  · split <;> simp
  · rfl

theorem State.scu_closeSet (s : State) (cur fol : RollSet) (k : Coord) (own : Bool) :
    (s.closeSet cur fol k own).scu = s.scu := by
  unfold State.closeSet
  rw [State.scu_notice, State.scu_announceClose, State.scu_cutPulse]
  exact (State.scu_appendClosed _ _).trans (State.scu_dropAll _ _ _)

theorem State.closeSet_closes (s : State) (cur fol : RollSet) (k : Coord) (own : Bool) :
    Closes s (s.closeSet cur fol k own) cur fol k own := by
  have hframe := s.closeSet_frame cur fol k own
  have hscu := s.scu_closeSet cur fol k own
  have hfol := s.closeAt_frame cur fol k
  have hc : (s.closeAt cur fol k).2.1 =
      ⟨{ cur with cut := some k, entries := cur.entries.filterMap (keptPart (endLength cur.start k)) },
        endLength cur.start k, s.lcu.epoch, .none, false⟩ := rfl
  have hrmu := s.rmu_closeAt cur fol k
  unfold State.closeSet at hframe hscu ⊢
  generalize s.closeAt cur fol k = x at *
  obtain ⟨s1, c, f⟩ := x
  simp only at hfol hc hrmu hframe hscu ⊢
  obtain ⟨cs, p, happ⟩ := s1.rmu_appendClosed c
  have hmem := s1.mem_appendClosed c
  have hpulse := (s1.replaceCurrent c f).rmuFrame_cutPulse k
  obtain ⟨hclosed, hnext, -, hcur, hnxt⟩ := Rmu.frame_eq hpulse
  generalize (s1.replaceCurrent c f).cutPulse k = t at *
  change t.rmu.closed = (s1.appendClosed c).rmu.closed at hclosed
  change t.rmu.nextSet = (s1.appendClosed c).rmu.nextSet at hnext
  change t.rmu.current.map RollSet.frame = some f.frame at hcur
  change t.rmu.next.map RollSet.frame = none at hnxt
  obtain ⟨cs', hann⟩ := t.rmu_announceClose c.set.number k own
  obtain ⟨a, ha, hown⟩ := State.mem_announceClose (s := t) (hclosed ▸ hmem) c.set.number k own
  refine ⟨?_, ?_, ?_, ⟨_, ha, ?_⟩, hscu, hframe⟩
  · rw [State.rmu_notice, hann]
    obtain ⟨g, hg, hgf⟩ := Option.map_eq_some_iff.mp hcur
    exact ⟨g, hg, hgf.trans hfol⟩
  · rw [State.rmu_notice, hann]
    simpa using hnxt
  · rw [State.rmu_notice, hann]
    simp only
    rw [hnext, happ, hrmu]
  · subst hc
    exact ⟨rfl, rfl, rfl, hown⟩

end Sys2Proof.Machine
end

section
/-! CUTOVER frames, and the edges of sensors but for those a window is open for (R64 to R67, R124, R129, R130). -/

namespace Sys2Proof.Machine

/-! ### Cuts that move -/

/-- Both sets keep all but their entries where the cut of a CLOSING set moves. -/
theorem State.moveCut_frames (s : State) (cur nxt : RollSet) (k : Coord) :
    (s.moveCut cur nxt k).2.1.frame = { cur with cut := some k }.frame ∧
      (s.moveCut cur nxt k).2.2.frame = { nxt with start := k }.frame := by
  unfold State.moveCut
  simp only [State.frame_enterAll]
  exact ⟨rfl, rfl⟩

/-- The drops of a moved cut place notices, and nothing else. -/
theorem State.enterAll_eq (es : List RollEntry) (s : State) (r : RollSet) :
    (s.enterAll r es).1 = s.withLpt (s.enterAll r es).1.lpt := by
  induction es generalizing s r with
  | nil => rfl
  | cons e es ih =>
    have henter : (s.enter r e).1 = s.withLpt (s.enter r e).1.lpt := by
      unfold State.enter State.dropEntry
      split
      · rfl
      · simp only
        split <;> rfl
    have hcons : (s.enterAll r (e :: es)).1 = ((s.enter r e).1.enterAll (s.enter r e).2 es).1 := rfl
    rw [hcons]
    exact (ih _ _).trans ((congrArg (fun t : State => t.withLpt _) henter).trans (State.withLpt_withLpt ..))

theorem State.moveCut_eq (s : State) (cur nxt : RollSet) (k : Coord) :
    (s.moveCut cur nxt k).1 = s.withLpt (s.moveCut cur nxt k).1.lpt := by
  unfold State.moveCut
  simp only
  rw [State.enterAll_eq _ (State.enterAll _ _ _).1, State.enterAll_eq _ s]
  rfl

theorem endLength_of_before {start k : Coord} (h : before start k = true) : endLength start k = (k - start).toNat :=
  if_pos h

/-! ### CUTOVER frames -/

section FollowCut

variable {s : State} {cur : RollSet} (hcur : s.rmu.current = some cur)

include hcur in
theorem State.followCut_of_not_after {f : Coord} (hf : before cur.start f = false) (source : Nat × Nat) :
    s.followCut f source = s.cutIgnored source.1 2 f := by
  simp [State.followCut, hcur, hf]

include hcur in
theorem State.followCut_of_open {f : Coord} (hf : before cur.start f = true) (hcut : cur.cut = none)
    (source : Nat × Nat) : s.followCut f source =
      if reached s.lcu.coord f then s.closeWithNew { cur with followed := some source } f false
      else s.planCut { cur with followed := some source } f := by
  simp [State.followCut, hcur, hf, hcut]

include hcur in
theorem State.followCut_of_closing {f : Coord} {nxt : RollSet} (hf : before cur.start f = true)
    (hcut : cur.cut ≠ none) (hnext : s.rmu.next = some nxt) (source : Nat × Nat) : s.followCut f source =
      if reached s.lcu.coord f then s.closeMoved { cur with followed := some source } nxt f false
      else
        (s.moveCut { cur with followed := some source } nxt f).1.withRmu
          { s.rmu with
            current := some (s.moveCut { cur with followed := some source } nxt f).2.1
            next := some (s.moveCut { cur with followed := some source } nxt f).2.2 } := by
  obtain ⟨k, hk⟩ := Option.ne_none_iff_exists'.mp hcut
  simp [State.followCut, hcur, hf, hk, hnext]

end FollowCut

theorem exec_cutoverFrame {s : State} {e : InEntry} (h : FrameNext s .cutover e) :
    exec .cutoverFrame s = .next (s.dequeued.takeCutover e).driven :=
  (takeFrame_next h _ : execCutoverFrame s = _)

/-- A frame that is followed acts on the current set. -/
theorem State.takeCutover_of_followed {s : State} {e : InEntry} (hroll : s.cfg.rollMap = true)
    (hfollow : s.cfg.followCuts = true) (h1 : 1 ≤ e.frame.origin) (h24 : e.frame.origin ≤ 24)
    (hst : s.stc.station = .active) : s.takeCutover e =
      s.followCut (parseCutover e.frame.payload).1 (e.frame.origin, (parseCutover e.frame.payload).2) :=
  if_pos (by simp [hroll, hfollow, h1, h24, hst])

theorem State.takeCutover_of_not_followed {s : State} {e : InEntry} (h : ¬ (s.cfg.rollMap = true ∧
    s.cfg.followCuts = true ∧ 1 ≤ e.frame.origin ∧ e.frame.origin ≤ 24 ∧ s.stc.station = .active)) :
    s.takeCutover e = s :=
  if_neg fun hall => h (by simpa [and_assoc] using hall)

/-- A set opened while ACTIVE. -/
theorem State.newSet_of_active {s : State} (hst : s.stc.station = .active) (k : Coord) :
    s.newSet k = ⟨s.rmu.nextSet, k, none, none, false, false, false, 0, []⟩ := by
  simp [State.newSet, hst]

/-- Settles O42: each branch of the frame, and what the closes leave. -/
theorem cutoverFrames : Obligations.CutoverFrames := by
  refine ⟨fun s b h => (takeLoopback_next h _ : execCutoverLoopback s = _), fun s e h => ?_⟩
  rw [exec_cutoverFrame h]
  intro o f number followed opened advanced
  refine ⟨fun hnot => by rw [State.takeCutover_of_not_followed (s := s.dequeued) hnot], ?_⟩
  rintro ⟨hroll, hfollow, h1, h24, hst⟩ cur hcur
  have hcur' : s.dequeued.rmu.current = some cur := hcur
  have htake : s.dequeued.takeCutover e = s.dequeued.followCut f (o, number) :=
    State.takeCutover_of_followed (s := s.dequeued) hroll hfollow h1 h24 hst
  have hopened : s.dequeued.newSet f = opened := State.newSet_of_active (s := s.dequeued) hst f
  rw [htake]
  refine ⟨fun hf => ?_, fun hf hcut => ⟨fun hr => ?_, fun hr => ?_⟩, fun nxt hf hcut hnext => ?_⟩
  · rw [State.followCut_of_not_after hcur' hf]
    rfl
  · rw [State.followCut_of_open hcur' hf hcut, if_neg (by simp [State.dequeued, hr]), State.planCut, hopened]
    rfl
  · rw [State.followCut_of_open hcur' hf hcut, if_pos (by simp [State.dequeued, hr]), State.closeWithNew, hopened]
    have hc := State.closeSet_closes (s.dequeued.withRmu { s.rmu with nextSet := advanced })
      { cur with followed := some (o, number) } opened f false
    obtain ⟨fol, hfol, hframe⟩ := hc.current
    obtain ⟨c, hmem, hset, hlen, -, hann⟩ := hc.closed
    obtain ⟨hnumber, hstart, -⟩ := RollSet.frame_iff.mp hframe
    refine ⟨_, fol, rfl, hc.frame.lcu, rfl, hfol, hstart, hnumber, hc.next, c, hmem, ?_, ?_, ?_, ?_, hann rfl⟩
    · rw [hset]
    · rw [hset]
    · rw [hset]
    · rw [hlen]
      exact endLength_of_before hf
  · intro moved
    have hframes := s.dequeued.moveCut_frames { cur with followed := some (o, number) } nxt f
    have hsame := s.dequeued.moveCut_eq { cur with followed := some (o, number) } nxt f
    have hnext' : s.dequeued.rmu.next = some nxt := hnext
    rw [State.followCut_of_closing hcur' hf hcut hnext']
    refine ⟨fun hr => ?_, fun hr => ?_⟩
    · rw [if_neg (by simp [State.dequeued, hr])]
      rfl
    · rw [if_pos (by simp [State.dequeued, hr])]
      have hc := State.closeSet_closes moved.1 moved.2.1 moved.2.2 f false
      obtain ⟨fol, hfol, hframe⟩ := hc.current
      obtain ⟨c, hmem, hset, hlen, -, hann⟩ := hc.closed
      obtain ⟨hnumber, hstart, -⟩ := RollSet.frame_iff.mp (hframe.trans hframes.2)
      obtain ⟨hnumber', hstart', -, hfollowed', -⟩ := RollSet.frame_iff.mp hframes.1
      have hlcu : moved.1.lcu = s.lcu := (congrArg State.lcu hsame).trans rfl
      have hnextSet : moved.1.rmu.nextSet = s.rmu.nextSet :=
        (congrArg (fun t : State => t.rmu.nextSet) hsame).trans rfl
      refine ⟨moved.1.closeSet moved.2.1 moved.2.2 f false, fol, rfl, hc.frame.lcu.trans hlcu,
        hc.nextSet.trans hnextSet, rfl, hfol, hstart, hnumber, hc.next, c, hmem, ?_, ?_, ?_, ?_, hann rfl⟩
      · rw [hset]
        exact hnumber'
      · rw [hset]
        exact hfollowed'
      · rw [hset]
      · rw [hlen, hstart']
        exact endLength_of_before hf

/-! ### Sensor edges -/

theorem exec_sensorEdge {s : State} (n : Fin 4) (level : Level) (order : List MoveBlock) (hl : s.live = true)
    (hc : s.configured = true) : exec (.sensorEdge n level order) s =
      .next ((s.withPins { s.pins with sensors := s.pins.sensors.set n level }).filterLevel n level order).driven :=
  (if_pos (by rw [hl, hc]; rfl) : execSensorEdge n level order s = _)

/-- The state once the level of a sensor's pin has settled. -/
def State.settled (s : State) (n : Fin 4) (level : Level) : State :=
  (s.withPins { s.pins with sensors := s.pins.sensors.set n level }).withScu
    { s.scu with filtered := s.scu.filtered.set n (some level) }

theorem State.filterLevel_of_no_edge {s : State} {n : Fin 4} {level : Level} (order : List MoveBlock)
    (h : ∀ held, s.scu.filtered.get n = some held → edgeNamed (s.cfg.sensors.get n).edge held level = false) :
    (s.withPins { s.pins with sensors := s.pins.sensors.set n level }).filterLevel n level order =
      s.settled n level := by
  unfold State.filterLevel
  simp only [State.scu_withPins]
  split
  · rfl
  · next held hheld =>
    exact if_neg (Bool.eq_false_iff.mp (h held hheld))

theorem State.filterLevel_of_edge {s : State} {n : Fin 4} {level held : Level} (order : List MoveBlock)
    (hheld : s.scu.filtered.get n = some held) (hedge : edgeNamed (s.cfg.sensors.get n).edge held level = true) :
    (s.withPins { s.pins with sensors := s.pins.sensors.set n level }).filterLevel n level order =
      (s.settled n level).takeEdge n order := by
  unfold State.filterLevel
  simp only [State.scu_withPins, hheld]
  exact if_pos hedge

/-- An edge is taken in ACTIVE with the last direction FORWARD, by its function. -/
theorem State.takeEdge_of_taken {s : State} (n : Fin 4) (order : List MoveBlock) (hst : s.stc.station = .active)
    (hdir : s.lcu.direction = .forward) : s.takeEdge n order =
      match (s.cfg.sensors.get n).function with
      | .off => s
      | .source kind lanes =>
        (s.capture n).sourceMark kind lanes (s.lcu.coord - ofSigned (s.cfg.sensors.get n).offset)
      | .sight => (s.capture n).sightEdge n order
      | .cut => (s.capture n).sensorCut s.lcu.coord :=
  if_pos (by simp [hst, hdir])

theorem State.configured_of_active {s : State} (h : s.stc.station = .active) : s.configured = true := by
  simp [State.configured, h]

/-- Settles O21. -/
theorem edgeOnlyFiltersOrCaptures : Obligations.EdgeOnlyFiltersOrCaptures := by
  intro n level order s hl hc base
  rw [exec_sensorEdge n level order hl hc]
  refine ⟨fun hno => ?_, fun held hheld hedge hfun hst hdir hnone => ?_⟩
  · by_cases hedge : ∃ held, s.scu.filtered.get n = some held ∧ edgeNamed (s.cfg.sensors.get n).edge held level = true
    · obtain ⟨held, hheld, hedge⟩ := hedge
      rw [State.filterLevel_of_edge order hheld hedge]
      have hignored : (s.settled n level).takeEdge n order = s.settled n level := by
        by_cases htaken : s.stc.station = .active ∧ s.lcu.direction = .forward
        · have hoff : (s.cfg.sensors.get n).function = .off := by
            rcases hno with h | ⟨held', h, h'⟩ | h | h | h
            · simp [hheld] at h
            · rw [hheld] at h
              cases h
              simp [hedge] at h'
            · exact h
            · exact absurd htaken.1 h
            · simp [htaken.2] at h
          rw [State.takeEdge_of_taken (s := s.settled n level) n order htaken.1 htaken.2]
          have hoff' : ((s.settled n level).cfg.sensors.get n).function = .off := hoff
          rw [hoff']
        · refine if_neg fun h => htaken ?_
          simpa [State.settled] using h
      rw [hignored]
      rfl
    · rw [State.filterLevel_of_no_edge order fun held hheld => by
        cases h : edgeNamed (s.cfg.sensors.get n).edge held level
        · rfl
        · exact absurd ⟨held, hheld, h⟩ hedge]
      rfl
  · have hfun' : ((s.settled n level).cfg.sensors.get n).function = .sight := hfun
    have hnone' : servedWindow (((s.settled n level).capture n).scu.windows.get n) = none := by
      rw [show ((s.settled n level).capture n).scu.windows.get n = [] from hnone]
      rfl
    rw [State.filterLevel_of_edge order hheld hedge,
      State.takeEdge_of_taken (s := s.settled n level) n order hst hdir, hfun']
    simp only [State.sightEdge, hnone']
    rfl

/-- Settles O22. -/
theorem sourceEdgeStatesAMark : Obligations.SourceEdgeStatesAMark := by
  intro n level held order s kind lanes hl hst hdir hheld hedge hfun q base v
  refine ⟨State.offerMark_frame _ _, ?_⟩
  have hfun' : ((s.settled n level).cfg.sensors.get n).function = .source kind lanes := hfun
  rw [exec_sensorEdge n level order hl (State.configured_of_active hst), State.filterLevel_of_edge order hheld hedge,
    State.takeEdge_of_taken (s := s.settled n level) n order hst hdir, hfun']
  have hoffered : ((((s.settled n level).capture n).consumeNumber q).offerMark
      ((((s.settled n level).capture n).ownMarkFrame kind q lanes 0).ownOffer s.cfg.station)).1 = v := by
    have hbase : ((s.settled n level).capture n).consumeNumber q = base := by
      simp only [State.consumeNumber, base]
      cases hp : s.mke.lastPosted with
      | none => simp [State.settled, State.capture, hp]
      | some p =>
        simp [State.settled, State.capture, hp]
        rfl
    rw [hbase]
    rfl
  change Host.Outcome.next (((s.settled n level).capture n).sourceMark kind lanes q).driven = _
  unfold State.sourceMark
  simp only
  rw [show ((s.settled n level).capture n).cfg.station = s.cfg.station from rfl, hoffered]
  split <;> rfl

section SensorCut

variable {s : State} {cur : RollSet} (hcur : s.rmu.current = some cur) {c : Coord}

include hcur in
theorem State.sensorCut_of_not_after (hc : before cur.start c = false) :
    s.sensorCut c = s.cutIgnored s.cfg.station 1 c := by
  simp [State.sensorCut, hcur, hc]

include hcur in
theorem State.sensorCut_of_open (hc : before cur.start c = true) (h : cur.cut = none ∨ s.rmu.next = none) :
    s.sensorCut c = s.closeWithNew cur c true := by
  rcases h with h | h
  · simp [State.sensorCut, hcur, hc, h]
  · cases hcut : cur.cut <;> simp [State.sensorCut, hcur, hc, h, hcut]

include hcur in
theorem State.sensorCut_of_closing {nxt : RollSet} (hc : before cur.start c = true) (hcut : cur.cut ≠ none)
    (hnext : s.rmu.next = some nxt) : s.sensorCut c = s.closeMoved { cur with followed := none } nxt c true := by
  obtain ⟨k, hk⟩ := Option.ne_none_iff_exists'.mp hcut
  simp [State.sensorCut, hcur, hc, hk, hnext]

end SensorCut

/-- Settles O23. -/
theorem cutEdgeClosesOrIsIgnored : Obligations.CutEdgeClosesOrIsIgnored := by
  intro n level held order s cur hl hst hdir hheld hedge hfun hcur base
  have hfun' : ((s.settled n level).cfg.sensors.get n).function = .cut := hfun
  rw [exec_sensorEdge n level order hl (State.configured_of_active hst), State.filterLevel_of_edge order hheld hedge,
    State.takeEdge_of_taken (s := s.settled n level) n order hst hdir, hfun']
  change (_ → Host.Outcome.next (base.sensorCut s.lcu.coord).driven = _) ∧
    (_ → ∃ (u : State) (fol : RollSet), Host.Outcome.next (base.sensorCut s.lcu.coord).driven = .next u.driven ∧ _)
  have hcur' : base.rmu.current = some cur := hcur
  refine ⟨fun hc => by rw [State.sensorCut_of_not_after hcur' hc]; rfl, fun hc => ?_⟩
  by_cases hopen : cur.cut = none ∨ s.rmu.next = none
  · have hnew : base.newSet s.lcu.coord = _ := State.newSet_of_active (s := base) hst s.lcu.coord
    rw [State.sensorCut_of_open hcur' hc hopen, State.closeWithNew, hnew]
    have hclose := base.useSetNumber.closeSet_closes cur
      ⟨s.rmu.nextSet, s.lcu.coord, none, none, false, false, false, 0, []⟩
      s.lcu.coord true
    obtain ⟨fol, hfol, hframe⟩ := hclose.current
    obtain ⟨c, hmem, hset, hlen, hepoch, -⟩ := hclose.closed
    obtain ⟨-, hstart, -⟩ := RollSet.frame_iff.mp hframe
    refine ⟨_, fol, rfl, hclose.scu, hfol, hstart, hclose.next, hclose.frame.lcu, ⟨c, hmem, ?_, ?_, ?_, ?_, hepoch⟩,
      fun _ => rfl, fun nxt hcut hnext => ?_⟩
    · rw [hset]
    · rw [hset]
    · rw [hset]
    · rw [hlen]
      exact endLength_of_before hc
    · rcases hopen with h | h
      · exact absurd h hcut
      · rw [hnext] at h
        cases h
  · obtain ⟨hcut, hnext⟩ := not_or.mp hopen
    obtain ⟨nxt, hnxt⟩ := Option.ne_none_iff_exists'.mp hnext
    have hnxt' : base.rmu.next = some nxt := hnxt
    rw [State.sensorCut_of_closing hcur' hc hcut hnxt', State.closeMoved]
    have hframes := base.moveCut_frames { cur with followed := none } nxt s.lcu.coord
    have hsame := base.moveCut_eq { cur with followed := none } nxt s.lcu.coord
    generalize hmoved : base.moveCut { cur with followed := none } nxt s.lcu.coord = moved at *
    have hclose := moved.1.closeSet_closes moved.2.1 moved.2.2 s.lcu.coord true
    obtain ⟨fol, hfol, hframe⟩ := hclose.current
    obtain ⟨c, hmem, hset, hlen, hepoch, -⟩ := hclose.closed
    obtain ⟨-, hstart, -⟩ := RollSet.frame_iff.mp (hframe.trans hframes.2)
    obtain ⟨hnumber', hstart', -⟩ := RollSet.frame_iff.mp hframes.1
    have hlcu : moved.1.lcu = s.lcu := (congrArg State.lcu hsame).trans rfl
    have hscu : moved.1.scu = base.scu := (congrArg State.scu hsame).trans rfl
    refine ⟨moved.1.closeSet moved.2.1 moved.2.2 s.lcu.coord true, fol, rfl, hclose.scu.trans hscu, hfol, hstart,
      hclose.next, hclose.frame.lcu.trans hlcu, ⟨c, hmem, ?_, ?_, ?_, ?_, ?_⟩, fun h => absurd h hopen,
      fun nxt' _ h => ?_⟩
    · rw [hset]
      exact hnumber'
    · rw [hset]
      exact hstart'
    · rw [hset]
    · rw [hlen, hstart']
      exact endLength_of_before hc
    · rw [hepoch, hlcu]
    · rw [hnxt] at h
      cases h
      rw [hmoved]

end Sys2Proof.Machine
end

section
/-! The roll map's requests: CUTOVER, CANCEL CUTOVER, READ ROLL and FREE ROLL (R125 to R134). -/

namespace Sys2Proof.Machine

/-! ### CUTOVER -/

theorem Requested.cutoverIsNow {s : State} {p : List Byte} (h : Requested s .cutover p) :
    s.cutoverIsNow = (byteAt p 0 == 1) := by
  unfold State.cutoverIsNow
  rw [State.taken_of_slot h.slot]

theorem exec_cutoverAt {s : State} {p : List Byte} (h : Requested s .cutover p) (hmode : byteAt p 0 ≠ 1) :
    exec .cutoverAt s = .next (s.takeCutoverAt p).driven :=
  (if_neg (by simp [h.cutoverIsNow, hmode]) : execCutoverAt s = _).trans (takeRequest_next h _)

theorem exec_cutoverNow {s : State} {p : List Byte} (h : Requested s .cutover p) (hmode : byteAt p 0 = 1) :
    exec .cutoverNow s = .next (s.takeCutoverNow p).driven :=
  (if_pos (by simp [h.cutoverIsNow, hmode]) : execCutoverNow s = _).trans (takeRequest_next h _)

theorem State.currentSet_of_disabled {s : State} (h : s.cfg.rollMap = false) : s.currentSet = none := by
  simp [State.currentSet, h]

theorem State.currentSet_of_enabled {s : State} {cur : RollSet} (h : s.cfg.rollMap = true)
    (hcur : s.rmu.current = some cur) : s.currentSet = some cur := by
  simp [State.currentSet, h, hcur]

theorem State.newSet_eq (s : State) (k : Coord) :
    s.newSet k = ⟨s.rmu.nextSet, k, none, none, false, decide (s.stc.station = .desync), false, 0, []⟩ := rfl

/-- The roll map is not enabled. -/
theorem rollRequests_of_disabled {s : State} {p : List Byte} (hoff : s.cfg.rollMap = false) :
    (Requested s .cutover p →
      (byteAt p 0 ≠ 1 → exec .cutoverAt s = .next (s.answer .cutover .state).driven) ∧
      (byteAt p 0 = 1 → exec .cutoverNow s = .next (s.answer .cutover .state).driven)) ∧
    (Requested s .cancelCutover p → exec .cancelCutover s = .next (s.answer .cancelCutover .state).driven) ∧
    (Requested s .readRoll p → exec .readRoll s = .next (s.answer .readRoll .state).driven) ∧
    (Requested s .freeRoll p → exec .freeRoll s = .next (s.answer .freeRoll .state).driven) := by
  have hnone := State.currentSet_of_disabled hoff
  refine ⟨fun req => ⟨fun h => ?_, fun h => ?_⟩, fun req => ?_, fun req => ?_, fun req => ?_⟩
  · rw [exec_cutoverAt req h, State.takeCutoverAt, hnone]
  · rw [exec_cutoverNow req h, State.takeCutoverNow, hnone]
  · rw [show exec .cancelCutover s = _ from takeRequest_next req _, State.takeCancel, hnone]
  · rw [show exec .readRoll s = _ from takeRequest_next req _, State.takeReadRoll, hoff]
    rfl
  · rw [show exec .freeRoll s = _ from takeRequest_next req _, State.takeFreeRoll, hoff]
    rfl

/-- CUTOVER in mode AT, with a current set. -/
theorem State.takeCutoverAt_eq {s : State} {cur : RollSet} (p : List Byte) (hon : s.cfg.rollMap = true)
    (hcur : s.rmu.current = some cur) : s.takeCutoverAt p =
      if byteAt p 0 ≠ 0 then s.answer .cutover .range
      else if cur.cut.isSome then s.answer .cutover .busy
      else if !(before s.lcu.coord (BitVec.ofNat 32 (field p 1 4)) && before cur.start (BitVec.ofNat 32 (field p 1 4)))
      then s.answer .cutover .range
      else (s.planCut cur (BitVec.ofNat 32 (field p 1 4))).answerCutover cur.number s.rmu.nextSet := by
  rw [State.takeCutoverAt, State.currentSet_of_enabled hon hcur]

theorem State.takeCutoverNow_eq {s : State} {cur : RollSet} (p : List Byte) (hon : s.cfg.rollMap = true)
    (hcur : s.rmu.current = some cur) : s.takeCutoverNow p =
      if cur.cut.isSome then s.answer .cutover .busy
      else if !before cur.start s.lcu.coord then s.answer .cutover .range
      else if s.isActive && !s.lbi.normalFree then s.answer .cutover .busy
      else (s.closeWithNew cur s.lcu.coord true).answerCutover cur.number s.rmu.nextSet := by
  rw [State.takeCutoverNow, State.currentSet_of_enabled hon hcur]

/-- CUTOVER NOW where the cut is made. -/
theorem cutoverNow_closes {s : State} {cur : RollSet} :
    (
      let u := (s.closeWithNew cur s.lcu.coord true).answerCutover cur.number s.rmu.nextSet
      before cur.start s.lcu.coord = true → ∃ (fol : RollSet) (c : ClosedSet),
        u.rmu.current = some fol ∧ fol.number = s.rmu.nextSet ∧ fol.start = s.lcu.coord ∧ fol.cut = none ∧
        u.rmu.next = none ∧ c ∈ u.rmu.closed ∧ c.set.number = cur.number ∧ c.set.cut = some s.lcu.coord ∧
        c.endLength = (s.lcu.coord - cur.start).toNat ∧ u.lcu = s.lcu ∧ SameStation s.stc u.stc) := by
  intro u hafter
  have hc := s.useSetNumber.closeSet_closes cur (s.newSet s.lcu.coord) s.lcu.coord true
  obtain ⟨fol, hfol, hframe⟩ := hc.current
  obtain ⟨c, hmem, hset, hlen, -⟩ := hc.closed
  obtain ⟨hnumber, hstart, hcut, -⟩ := RollSet.frame_iff.mp hframe
  refine ⟨fol, c, hfol, hnumber, hstart, hcut, hc.next, hmem, ?_, ?_, ?_, hc.frame.lcu, hc.frame.stc⟩
  · rw [hset]
  · rw [hset]
  · rw [hlen]
    exact endLength_of_before hafter

/-! ### CANCEL CUTOVER -/

/-- The entries of the NEXT set as the current set takes them back (R120). -/
def takenBack (cur nxt : RollSet) : List RollEntry := nxt.entries.map (fun e => e.moved nxt.start cur.start)

/-- A CLOSING set that has taken back its NEXT set (R120). -/
def State.merged (s : State) (cur nxt : RollSet) : RollSet :=
  let r := (s.enterAll cur (takenBack cur nxt)).2
  { r with
    cut := none
    followed := none
    uncertain := r.uncertain || nxt.uncertain
    overflow := r.overflow || nxt.overflow
    dropped := holdAdd 65535 r.dropped nxt.dropped }

theorem State.mergeBack_of_closing {s : State} {cur nxt : RollSet} (hcur : s.rmu.current = some cur)
    (hnxt : s.rmu.next = some nxt) : s.mergeBack =
      (s.withLpt (s.enterAll cur (takenBack cur nxt)).1.lpt).withRmu { s.rmu with
        current := some (s.merged cur nxt)
        next := none
        nextSet := nxt.number
        pendingRead := s.rmu.pendingRead.filter (fun p => p.1 != nxt.number) } := by
  have hsame := State.enterAll_eq (takenBack cur nxt) s cur
  unfold State.mergeBack State.merged
  simp only [hcur, hnxt]
  rw [takenBack] at *
  rw [State.rmu_enterAll]
  exact congrArg (fun t : State => t.withRmu _) hsame

theorem State.slot_enterAll (es : List RollEntry) (s : State) (r : RollSet) :
    (s.enterAll r es).1.lpt.slot = s.lpt.slot :=
  (State.enterAll_kept (webFrame_kept s).toKeptByMarks es (WebFrame.refl s) r).slot

/-- The merged set is the current one. -/
theorem State.merged_frame (s : State) (cur nxt : RollSet) : (s.merged cur nxt).frame =
    ({ cur with cut := none, followed := none, uncertain := cur.uncertain || nxt.uncertain } : RollSet).frame := by
  have hframe := RollSet.frame_iff.mp (State.frame_enterAll (takenBack cur nxt) s cur)
  obtain ⟨hnumber, hstart, -, -, huncertain, hinterrupted⟩ := hframe
  exact RollSet.frame_iff.mpr ⟨hnumber, hstart, rfl, rfl, by simp [State.merged, huncertain], hinterrupted⟩

theorem cancelCutover_of_enabled {s : State} {p : List Byte} (req : Requested s .cancelCutover p)
    (hon : s.cfg.rollMap = true) {cur : RollSet} (hcur : s.rmu.current = some cur) :
    (cur.cut = none → exec .cancelCutover s = .next (s.answer .cancelCutover .state).driven) ∧
    (∀ nxt, cur.cut ≠ none → s.rmu.next = some nxt →
      ∃ (u : State) (merged : RollSet), exec .cancelCutover s = .next u.driven ∧
        u.lpt.slot = .ready ⟨0x31, .ok, bytesBE 2 nxt.number⟩ ∧ u.rmu.current = some merged ∧
        merged.number = cur.number ∧ merged.start = cur.start ∧ merged.cut = none ∧ merged.followed = none ∧
        u.rmu.next = none ∧ u.rmu.nextSet = nxt.number ∧ u.rmu.closed = s.rmu.closed ∧
        u.lbi = s.lbi ∧ u.lcu = s.lcu ∧ u.mke = s.mke ∧ u.stc = s.stc) := by
  rw [show exec .cancelCutover s = _ from takeRequest_next req _, State.takeCancel,
    State.currentSet_of_enabled hon hcur]
  refine ⟨fun hcut => ?_, fun nxt hcut hnxt => ?_⟩
  · cases hnxt : s.rmu.next <;> simp [hcut]
  · obtain ⟨k, hk⟩ := Option.ne_none_iff_exists'.mp hcut
    obtain ⟨hnumber, hstart, hcut', hfollowed, -⟩ := RollSet.frame_iff.mp (s.merged_frame cur nxt)
    refine ⟨s.mergeBack.answer .cancelCutover .ok (bytesBE 2 nxt.number), s.merged cur nxt, ?_, rfl, ?_⟩
    · simp [hnxt, hk]
    · rw [State.mergeBack_of_closing hcur hnxt]
      exact ⟨rfl, hnumber, hstart, hcut', hfollowed, rfl, rfl, rfl, rfl, rfl, rfl, rfl⟩

/-! ### READ ROLL -/

theorem ClosedSet.length_header (c : ClosedSet) : c.header.length = 24 := by simp [ClosedSet.header]

theorem RollEntry.length_bytes (len : Nat) (e : RollEntry) : (e.bytes len).length = 16 := by simp [RollEntry.bytes]

/-- A set being wound, by its number (R134). -/
theorem Rmu.openSet_eq_some {r : Rmu} {n : Nat} {c : RollSet} (hn : c.number = n) (h : r.current = some c ∨
    (r.next = some c ∧ ∀ x, r.current = some x → x.number ≠ n)) : r.openSet n = some c := by
  unfold Rmu.openSet
  rcases h with h | ⟨h, hne⟩
  · simp [h, hn]
  · cases hc : r.current with
    | none => simp [h, hn]
    | some x => simp [h, hn, hne x hc]

theorem Rmu.openSet_eq_none_iff {r : Rmu} {n : Nat} : r.openSet n = none ↔
    (∀ c, r.current = some c → c.number ≠ n) ∧ ∀ c, r.next = some c → c.number ≠ n := by
  unfold Rmu.openSet
  cases hc : r.current with
  | none => simp
  | some x =>
    by_cases hx : x.number = n <;> simp [hx]

theorem Rmu.closedSet_eq_none_iff {r : Rmu} {n : Nat} : r.closedSet n = none ↔
    ∀ c ∈ r.closed, c.set.number ≠ n := by
  simp [Rmu.closedSet]

theorem exec_readRoll {s : State} {p : List Byte} (req : Requested s .readRoll p) :
    exec .readRoll s = .next (s.takeReadRoll p).driven := takeRequest_next req _

section ReadRoll

variable {s : State} {p : List Byte} (hon : s.cfg.rollMap = true)

include hon in
theorem State.takeReadRoll_of_range (h : ¬ (1 ≤ byteAt p 3 ∧ byteAt p 3 ≤ 8)) :
    s.takeReadRoll p = s.answer .readRoll .range := by
  have hw : within 1 8 (byteAt p 3) = false := by rwa [← Bool.not_eq_true, within_iff]
  simp [State.takeReadRoll, hon, hw]

variable (hcount : 1 ≤ byteAt p 3 ∧ byteAt p 3 ≤ 8)

include hon hcount in
theorem State.takeReadRoll_of_closed {c : ClosedSet} (h : s.rmu.closedSet (field p 0 2) = some c) :
    s.takeReadRoll p = s.readClosed c (byteAt p 2) (byteAt p 3) := by
  simp [State.takeReadRoll, hon, within_iff.mpr hcount, h]

include hon hcount in
theorem State.takeReadRoll_of_open {r : RollSet} (h : s.rmu.closedSet (field p 0 2) = none)
    (hopen : s.rmu.openSet (field p 0 2) = some r) : s.takeReadRoll p = s.readOpen r := by
  simp [State.takeReadRoll, hon, within_iff.mpr hcount, h, hopen]

include hon hcount in
theorem State.takeReadRoll_of_none (h : s.rmu.closedSet (field p 0 2) = none)
    (hopen : s.rmu.openSet (field p 0 2) = none) : s.takeReadRoll p =
      (s.withRmu { s.rmu with pendingRead := s.rmu.endRead (field p 0 2) }).answer .readRoll .nosuch := by
  simp [State.takeReadRoll, hon, within_iff.mpr hcount, h, hopen]

end ReadRoll

/-! ### FREE ROLL -/

theorem exec_freeRoll {s : State} {p : List Byte} (req : Requested s .freeRoll p) (hon : s.cfg.rollMap = true) :
    exec .freeRoll s = .next (if (s.rmu.openSet (field p 0 2)).isSome then s.answer .freeRoll .state
      else if (s.rmu.closedSet (field p 0 2)).isNone then s.answer .freeRoll .nosuch
      else (s.withRmu { s.rmu with
        closed := s.rmu.closed.filter (fun c => c.set.number != field p 0 2)
        pendingRead := s.rmu.endRead (field p 0 2) }).answer .freeRoll .ok).driven := by
  have hexec : exec .freeRoll s = .next (s.takeFreeRoll p).driven := takeRequest_next req _
  rw [hexec, State.takeFreeRoll]
  simp only [hon, Bool.not_true, Bool.false_eq_true, if_false]

/-- Settles O59, request by request. -/
theorem rollMapRequests : Obligations.RollMapRequests := by
  intro s p
  refine ⟨rollRequests_of_disabled, fun req cur hon hcur => ⟨fun hmode => ?_, fun hmode => ?_, fun hmode => ?_⟩,
    fun req hon cur hcur => cancelCutover_of_enabled req hon hcur, fun req hon => ?_, fun req hon => ?_⟩
  · rw [exec_cutoverAt req (by omega), State.takeCutoverAt_eq p hon hcur, if_pos (by omega)]
  · intro x
    rw [exec_cutoverAt req (by omega), State.takeCutoverAt_eq p hon hcur, if_neg (by omega)]
    refine ⟨fun hcut => ?_, fun hcut hx => ?_, fun hcut hc hs => ?_⟩
    · rw [if_pos (Option.isSome_iff_ne_none.mpr hcut)]
    · rw [if_neg (by simp [hcut]), if_pos (by rcases hx with h | h <;> simp [x] at h <;> simp [h])]
    · rw [if_neg (by simp [hcut]), if_neg (by simp [x] at hc hs; simp [hc, hs])]
      rfl
  · rw [exec_cutoverNow req hmode, State.takeCutoverNow_eq p hon hcur]
    refine ⟨fun hcut => ?_, fun hcut hx => ?_, fun hcut hx hst hfree => ?_, fun hcut hx hfree => ?_⟩
    · rw [if_pos (Option.isSome_iff_ne_none.mpr hcut)]
    · rw [if_neg (by simp [hcut]), if_pos (by simp [hx])]
    · rw [if_neg (by simp [hcut]), if_neg (by simp [hx]), if_pos (by simp [hst, hfree])]
    · rw [if_neg (by simp [hcut]), if_neg (by simp [hx]), if_neg (by simpa using hfree)]
      obtain ⟨fol, c, hall⟩ := cutoverNow_closes hx
      exact ⟨_, fol, c, rfl, rfl, rfl, hall⟩
  · intro n first count byte bit sent header entry
    rw [exec_readRoll req]
    refine ⟨fun hbad => by rw [State.takeReadRoll_of_range hon (by omega)], fun h1 h8 => ?_⟩
    have hheader : ∀ c : ClosedSet, header c = ({ c with read := true } : ClosedSet).header := fun c => by
      obtain ⟨set, endLength, epoch, announcement, read⟩ := c
      cases announcement <;> rfl
    refine ⟨fun c hfind => ⟨?_, ?_, fun x => RollEntry.length_bytes c.endLength x⟩, fun cur hclosed hn hopen => ?_,
      fun hclosed hcur hnext => ?_⟩
    · rw [State.takeReadRoll_of_closed hon ⟨h1, h8⟩ hfind, hheader]
      rfl
    · rw [hheader]
      exact ClosedSet.length_header _
    · rw [State.takeReadRoll_of_open hon ⟨h1, h8⟩ (Rmu.closedSet_eq_none_iff.mpr hclosed)
        (Rmu.openSet_eq_some hn hopen)]
      simp only [State.readOpen]
      refine ⟨fun m t hpending hm => ?_, fun hpending => ?_⟩
      · simp only [hpending]
        rw [if_neg (by rw [hn]; exact hm)]
      · have hread : s.readPending cur = (s.withRmu { s.rmu with
            pendingRead := some (n, s.stc.now + BitVec.ofNat 32 s.cfg.discardInterval) }).answer .readRoll .pending
              (bytesBE 2 n ++ [if cur.cut.isSome then 2 else 1]) := by
          rw [← hn]
          rfl
        rw [← hread]
        cases hp : s.rmu.pendingRead with
        | none => rfl
        | some mt => simp only [if_pos ((hpending mt.1 mt.2 hp).trans hn.symm)]
    · rw [State.takeReadRoll_of_none hon ⟨h1, h8⟩ (Rmu.closedSet_eq_none_iff.mpr hclosed)
        (Rmu.openSet_eq_none_iff.mpr ⟨hcur, hnext⟩)]
      rfl
  · intro n open'
    rw [exec_freeRoll req hon]
    have hopen : (s.rmu.openSet (field p 0 2)).isSome = true ↔ open' := by
      rw [← not_iff_not, Bool.not_eq_true, Option.isSome_eq_false_iff, Option.isNone_iff_eq_none,
        Rmu.openSet_eq_none_iff]
      simp [open', n]
    refine ⟨fun h => ?_, fun h hnone => ?_, fun h hsome => ?_⟩
    · rw [if_pos (hopen.mpr h)]
    · rw [if_neg (mt hopen.mp h), if_pos (Option.isNone_iff_eq_none.mpr (Rmu.closedSet_eq_none_iff.mpr hnone))]
    · rw [if_neg (mt hopen.mp h), if_neg fun hnone => ?_]
      · rfl
      · obtain ⟨c, hc, hcn⟩ := hsome
        exact Rmu.closedSet_eq_none_iff.mp (Option.isNone_iff_eq_none.mp hnone) c hc hcn

end Sys2Proof.Machine
end

section
/-! POST MARK, and CONFIGURE (R26 to R29, R168, R169). -/

namespace Sys2Proof.Machine

/-! ### What a mark offered leaves of the normal class -/

theorem Lbi.normal_queueClaim (l : Lbi) (n : Nat) (f : OutFrame) : (l.queueClaim n f).normal = l.normal := by
  unfold Lbi.queueClaim
  split
  · split <;> rfl
  · rfl

theorem normal_kept (fs : List OutFrame) : KeptByMarks False (fun t => t.lbi.normal = fs) where
  place _ _ h := h
  count _ _ h := h
  fault _ _ _ h := h
  mke _ _ _ h := h
  aou _ _ _ h := h
  scu _ _ _ h := h
  rmuOk g := g.elim
  rmu _ _ _ _ h := h
  claim _ _ _ _ _ h := (Lbi.normal_queueClaim ..).trans h

theorem State.normal_offerMark (s : State) (o : MarkOffer) : (s.offerMark o).1.lbi.normal = s.lbi.normal :=
  State.offerMark_kept (normal_kept s.lbi.normal) rfl o

/-! ### POST MARK -/

theorem exec_postMark {s : State} {p : List Byte} (req : Requested s .postMark p) :
    exec .postMark s = .next (s.takePost p).driven := takeRequest_next req _

theorem lanesWithin_iff {count : Nat} {lanes : Lanes} :
    lanesWithin count lanes = true ↔ lanes ≠ 0 ∧ lanes &&& allLanes count = lanes := by
  simp [lanesWithin]

theorem placementByte_repeated (used : Nat) : (placementByte used .repeated).toNat ≤ 3 := by
  simp only [placementByte, BitVec.toNat_setWidth]
  omega

/-- The mark number used and the own last posted position moved on (R26, R29). -/
theorem State.consumeNumber_eq (s : State) (q : Coord) : s.consumeNumber q = s.withMke { s.mke with
    nextNumber := s.mke.nextNumber + 1
    lastPosted := some (match s.mke.lastPosted with
      | none => q
      | some held => if before held q then q else held) } := by
  unfold State.consumeNumber
  cases s.mke.lastPosted <;> rfl

/-- What is used of a free value, over the Mark Engine's count. -/
theorem State.useFree_eq (s : State) (p : Placement) : s.useFree p = s.withMke { s.mke with
    freeUsed := if p = .repeated then s.mke.freeUsed + 1 else s.mke.freeUsed } := by
  cases p <;> rfl

/-- An own mark stated: its number used, its frame queued (R26, R29). -/
def State.stated (s : State) (m : MarkFrame) : State :=
  (s.withMke { s.mke with
    nextNumber := s.mke.nextNumber + 1
    lastPosted := some (match s.mke.lastPosted with
      | none => m.position
      | some held => if before held m.position then m.position else held) }).withLbi
    { s.lbi with normal := s.lbi.normal ++ [.mark m] }

/-- The mark a POST MARK states. -/
def State.postMark (s : State) (f : PostFields) : MarkFrame :=
  s.ownMarkFrame (Fin.ofNat 8 f.kind) (s.postPosition f) f.lanes f.extent

/-- What an accepted POST MARK leaves, by the offer of its mark. -/
theorem State.acceptPost_eq {s : State} (ha : s.lbi.accepts = true) (f : PostFields) :
    s.acceptPost f =
      (
        let offered := (s.stated (s.postMark f)).offerMark ((s.postMark f).ownOffer s.cfg.station)
        (offered.1.withMke { offered.1.mke with
          freeUsed := if offered.2 = .repeated then s.mke.freeUsed + 1 else s.mke.freeUsed }).withLpt
            { offered.1.lpt with slot := .ready ⟨0x11, .ok, bytesBE 2 s.mke.nextNumber.toNat ++
              bytesBE 4 (s.postPosition f).toNat ++ [placementByte offered.1.mke.freeUsed offered.2] ++ f.tag⟩ }) := by
  have hstated : (s.consumeNumber (s.postPosition f)).withLbi (s.lbi.queueNormal (.mark (s.postMark f))) =
      s.stated (s.postMark f) := by
    rw [State.consumeNumber_eq, Lbi.queueNormal, if_pos ha]
    rfl
  have hframe := State.offerMark_frame (s.stated (s.postMark f)) ((s.postMark f).ownOffer s.cfg.station)
  have hfree : ((s.stated (s.postMark f)).offerMark ((s.postMark f).ownOffer s.cfg.station)).1.mke.freeUsed =
      s.mke.freeUsed := hframe.mke.freeUsed
  unfold State.acceptPost
  simp only
  rw [show s.ownMarkFrame (Fin.ofNat 8 f.kind) (s.postPosition f) f.lanes f.extent = s.postMark f from rfl, hstated,
    State.useFree_eq, hfree]
  rfl

/-- Settles O57: each check in turn, and the accepted mark from its offer. -/
theorem postMarkStatesAMark : Obligations.PostMarkStatesAMark := by
  intro s p req f q good inOrder posted
  rw [exec_postMark req]
  have hgood : (f.kind ≤ 6 && lanesWithin s.cfg.laneCount f.lanes) = true ↔ good := by
    rw [Bool.and_eq_true, decide_eq_true_eq, lanesWithin_iff]
  have horder : s.mke.lastPosted.any (fun held => before (s.postPosition f) held) = false ↔ inOrder := by
    rw [Option.any_eq_false]
    rfl
  have hactive : (!s.isActive) = true ↔ s.stc.station ≠ .active := by
    rw [Bool.not_eq_true', ← Bool.not_eq_true, State.isActive_iff]
  refine ⟨fun hst => ?_, fun hst => ⟨fun hbad => ?_, fun hg hout => ?_, fun hg hin hfull => ?_,
    fun hg hin hfree ha => ?_⟩⟩
  · have hrefuse : s.postRefusal (parsePost p) = some .state := if_pos (hactive.mpr hst)
    rw [State.takePost, hrefuse]
  · have hrefuse : s.postRefusal (parsePost p) = some .range := by
      rw [State.postRefusal, if_neg fun h => hactive.mp h hst,
        if_pos (Bool.not_eq_true' _ ▸ Bool.eq_false_iff.mpr (mt hgood.mp hbad))]
    rw [State.takePost, hrefuse]
  · have hrefuse : s.postRefusal (parsePost p) = some .order := by
      rw [State.postRefusal, if_neg fun h => hactive.mp h hst, if_neg (by simpa using hgood.mpr hg),
        if_pos (by simpa using mt horder.mp hout)]
    rw [State.takePost, hrefuse]
  · have hrefuse : s.postRefusal (parsePost p) = some .busy := by
      rw [State.postRefusal, if_neg fun h => hactive.mp h hst, if_neg (by simpa using hgood.mpr hg),
        if_neg (by simpa using horder.mpr hin), if_pos (by simp [hfull])]
    rw [State.takePost, hrefuse]
  · have haccept : s.postRefusal (parsePost p) = none := by
      rw [State.postRefusal, if_neg fun h => hactive.mp h hst, if_neg (by simpa using hgood.mpr hg),
        if_neg (by simpa using horder.mpr hin), if_neg (by simp [hfree])]
    rw [State.takePost, haccept]
    have hframe := State.offerMark_frame (s.stated (s.postMark f)) ((s.postMark f).ownOffer s.cfg.station)
    have hnormal := State.normal_offerMark (s.stated (s.postMark f)) ((s.postMark f).ownOffer s.cfg.station)
    have hplacement : ∀ (used : Nat) (x : Placement), (match x with
        | .queued => placementByte used x = 0
        | .spilled => placementByte used x = 1
        | .notQueued => placementByte used x = 2
        | .clash => placementByte used x = 3
        | .repeated => (placementByte used x).toNat ≤ 3) := by
      intro used x
      cases x with
      | repeated => exact placementByte_repeated used
      | _ => rfl
    refine ⟨s.acceptPost f, _, rfl, ⟨State.acceptPost_eq ha f, hplacement _ _⟩, ?_⟩
    rw [State.acceptPost_eq ha]
    refine ⟨hframe.mke.nextNumber, hframe.mke.origins, hframe.mke.freshPending, hframe.mke.lastPosted, hnormal, ?_,
      hframe.lcu, hframe.stc, hframe.pins⟩
    exact hframe.lbi

end Sys2Proof.Machine
end

section
/-! The starts of the part: CONFIGURE and RESTART, with the claim and the frames of an entry to JOINING (R168, R169,
R172). -/

namespace Sys2Proof.Machine

/-! ### An entry to JOINING with no claim held and nothing to send -/

/-- Claim 3, CENSUS and CLAIMS where the hold table and the outbound queue are empty (R169). -/
theorem State.joinClaims_of_empty {t : State} (hst : t.stc.station = .joining) (htable : t.htu.table = [])
    (hrefresh : t.htu.refresh = none) (hmode : t.lbi.mode = .ready) (hurgent : t.lbi.urgent = [])
    (hnormal : t.lbi.normal = []) (hdeferred : t.lbi.deferred = []) :
    ((t.request .census).takeDesyncClaim).request .claims = (t.withHtu { t.htu with
        table := [⟨t.cfg.station, 3, .desync, none, false⟩]
        refresh := some (t.stc.now + BitVec.ofNat 32 t.cfg.refreshPeriod) }).withLbi { t.lbi with
          urgent := [.hold 3 .desync none], normal := [.census, .claims] } := by
  have hcensus : t.request .census = t.withLbi { t.lbi with normal := [.census] } := by
    simp [State.request, Lbi.request, Lbi.accepts, hmode, hnormal, hdeferred, Lbi.normalFree, Lbi.unreservedFree,
      Lbi.queued, Lbi.reserved, Lbi.waitsFor, hurgent, Lbi.queueNormal, DeferredRequest.frame]
  have hclaim : (t.withLbi { t.lbi with normal := [.census] }).takeDesyncClaim = (t.withHtu { t.htu with
        table := [⟨t.cfg.station, 3, .desync, none, false⟩]
        refresh := some (t.stc.now + BitVec.ofNat 32 t.cfg.refreshPeriod) }).withLbi { t.lbi with
          urgent := [.hold 3 .desync none], normal := [.census] } := by
    simp [State.takeDesyncClaim, State.holdsFor, Htu.find, htable, State.makeClaim, hrefresh, State.onLine, hst,
      putHold, insertByKey, Lbi.queueClaim, Lbi.accepts, hmode, Lbi.waitsFor, hurgent, State.ahead, State.cfg]
    rfl
  rw [hcensus, hclaim]
  simp [State.request, Lbi.request, Lbi.accepts, hmode, hdeferred, Lbi.normalFree, Lbi.unreservedFree,
      Lbi.queued, Lbi.reserved, Lbi.waitsFor, Lbi.queueNormal, DeferredRequest.frame, OutFrame.claim?]

/-! ### CONFIGURE -/

theorem State.rmu_openFirstSet {s : State} (hst : s.stc.station ≠ .desync) : s.openFirstSet.rmu =
    if s.cfg.rollMap then { s.rmu with
      current := some ⟨s.rmu.nextSet, 0, none, none, false, false, false, 0, []⟩
      nextSet := if s.rmu.nextSet < 65535 then s.rmu.nextSet + 1 else 1 } else s.rmu := by
  have hnew : s.newSet 0 = ⟨s.rmu.nextSet, 0, none, none, false, false, false, 0, []⟩ := by
    simp [State.newSet, hst]
  unfold State.openFirstSet
  simp only
  rw [hnew]
  split <;> rfl

/-- The pin of a channel of idle level HIGH rises. -/
theorem Aou.edges_released (a : Aou) (outputs : Four OutputSettings) (ch : Fin 4) :
    (a.released outputs).edges.get ch = a.edges.get ch + if (outputs.get ch).idle = .high then 1 else 0 := by
  have hrisen : ∀ i : Fin 4, (match (outputs.get i).idle with
      | .high => a.edges.get i + 1
      | .low => a.edges.get i) = a.edges.get i + if (outputs.get i).idle = .high then 1 else 0 := fun i => by
    cases (outputs.get i).idle <;> rfl
  match ch with
  | 0 => exact hrisen 0
  | 1 => exact hrisen 1
  | 2 => exact hrisen 2
  | 3 => exact hrisen 3

/-- Settles O52. -/
theorem configureStartsThePart : Obligations.ConfigureStartsThePart := by
  intro s p req
  have hun := req.unconfigured
  rw [show exec .configure s = _ from takeRequest_next req _, State.takeConfigure]
  refine ⟨fun i hi => by rw [hi], fun hgood htable hrefresh hurgent hnormal hdeferred => ?_⟩
  rw [hgood]
  have hjoin := State.joinClaims_of_empty (t := s.started (parseSettings p)) (by simp) (by simpa using htable)
    (by simpa using hrefresh) (by simp) (by simpa using hurgent) (by simpa using hnormal) (by simpa using hdeferred)
  refine ⟨(s.startBlocks (parseSettings p)).answer .configure .ok, rfl, ?_⟩
  rw [State.startBlocks_eq, hjoin]
  refine ⟨by simp [State.ahead], by simp, fun n => ?_, ?_, by simp, by simp, by simp [State.answer_eq]; rfl, by simp,
    by simp, fun ch => ?_⟩
  · simp [Four.get_map]
  · simp only [State.rmu_answer, State.rmu_withLbi, State.rmu_withHtu]
    exact State.rmu_openFirstSet (by simp [hun])
  · simp only [State.aou_answer, State.aou_withLbi, State.aou_withHtu, State.aou_started]
    exact ⟨rfl, s.aou.edges_released (parseSettings p).outputs ch⟩

/-! ### Entries that find room -/

/-- Entries put into a set that has room for all of them (R118, R119). -/
theorem State.enterAll_of_room (es : List RollEntry) (s : State) {r : RollSet}
    (h : r.entries.length + es.length ≤ 256) :
    s.enterAll r es = (s, { r with entries := es.foldl (fun zs y => insertEntry y zs) r.entries }) := by
  induction es generalizing r with
  | nil => rfl
  | cons e es ih =>
    have henter : s.enter r e = (s, { r with entries := insertEntry e r.entries }) :=
      if_pos (by simp only [List.length_cons] at h; omega)
    have hlen : (insertEntry e r.entries).length = r.entries.length + 1 := length_insertByKey ..
    have hcons : s.enterAll r (e :: es) = (s.enter r e).1.enterAll (s.enter r e).2 es := rfl
    rw [hcons, henter, ih (by simp only [hlen, List.length_cons] at h ⊢; omega)]
    rfl

/-- Entries carried into a fresh set find room (R122). -/
theorem State.closeAt_of_room (s : State) {cur fol : RollSet} (k : Coord) (hcur : cur.entries.length ≤ 256)
    (hfol : fol.entries = []) : (s.closeAt cur fol k).1 = s := by
  have hcarried : (cur.entries.filterMap (carriedPart (endLength cur.start k))).length ≤ 256 :=
    (List.length_filterMap_le _ _).trans hcur
  unfold State.closeAt State.carryInto
  simp only [hfol, List.length_nil, Nat.sub_zero]
  rw [List.drop_of_length_le hcarried]
  rfl

/-! ### The set being wound, at a warm reset -/

/-- The notice that the oldest of four closed sets is lost, and its fault record, where they are due (R132). -/
def State.loseOldest (s : State) : State :=
  match s.rmu.closed with
  | oldest :: _ =>
    if 4 ≤ s.rmu.closed.length then
      ((s.count .setsLost).recordFault .setLost s.cfg.station).notice .setLost none none
        (packHalves oldest.set.number oldest.read.toNat)
    else s
  | [] => s

theorem State.appendClosed_eq (s : State) (c : ClosedSet) :
    ∃ cs p, s.appendClosed c = s.loseOldest.withRmu { s.rmu with closed := cs, pendingRead := p } ∧ c ∈ cs := by
  unfold State.appendClosed State.loseOldest
  cases hclosed : s.rmu.closed with
  | nil => exact ⟨[c], s.rmu.pendingRead, rfl, List.mem_singleton_self c⟩
  | cons oldest rest =>
    simp only
    split
    · exact ⟨rest ++ [c], _, rfl, by simp⟩
    · exact ⟨oldest :: rest ++ [c], s.rmu.pendingRead, rfl, by simp⟩

/-- What the loss of a set touches. -/
theorem State.loseOldest_eq (s : State) : ∃ f cs, s.loseOldest =
    (s.withStc { s.stc with fault := f, counters := cs }).withLpt s.loseOldest.lpt ∧
      (f = s.stc.fault ∨ f = some ⟨.setLost, s.stc.now, s.cfg.station⟩) := by
  unfold State.loseOldest
  split
  · split
    · exact ⟨_, _, rfl, .inr rfl⟩
    · exact ⟨_, _, rfl, .inl rfl⟩
  · exact ⟨_, _, rfl, .inl rfl⟩

/-- The pulse of a cut channel of width unit MS, from IDLE, with no spill entry owed (R49, R57). -/
theorem State.cutPulse_of_idle {s : State} {ch : Fin 4} (hch : s.cfg.cutChannel = some ch) (hms : s.unitOf ch = .ms)
    (hidle : (s.channel ch).state = .idle) (hspill : s.mke.spill = none) (hretired : s.mke.retired = 0) (k : Coord) :
    s.cutPulse k = s.setChannel ch (.pulsing (s.ahead s.cfg.cutWidth)) 0 := by
  have hrequest : s.pulseRequest ch k s.cfg.cutWidth none = s.setChannel ch (.pulsing (s.ahead s.cfg.cutWidth)) 0 := by
    simp [State.pulseRequest, hidle, hms, State.pulseStop]
  have hsettle : ∀ t : State, t.mke = s.mke → t.settleSpill = t := fun t ht => by
    simp [State.settleSpill, ht, hspill, hretired]
  simp only [State.cutPulse, hch]
  rw [hrequest, hsettle _ (State.mke_setChannel ..)]

/-- The pulse a warm reset asks for: of a cut channel of width unit MS alone. -/
def State.resetPulse (s : State) : State :=
  match s.cfg.cutChannel with
  | some ch => if s.unitOf ch = .ms then s.setChannel ch (.pulsing (s.ahead s.cfg.cutWidth)) 0 else s
  | none => s

/-- A set closed at a warm reset, with a fresh one at 0 current, before its pulse and its notice. -/
def State.closedFresh (m : State) (cur : RollSet) : State × ClosedSet :=
  let x := m.useSetNumber.closeAt { cur with interrupted := true } (m.newSet 0) m.lcu.coord
  (x.1.replaceCurrent x.2.1 x.2.2, x.2.1)

/-- What a close and a fresh set leave: notices, the loss of the oldest closed set, and the roll sets. -/
structure ClosedFresh (m y : State) (c : ClosedSet) (cur : RollSet) : Prop where
  frame : y = ((m.withStc { m.stc with fault := y.stc.fault, counters := y.stc.counters }).withLpt y.lpt).withRmu y.rmu
  fault : y.stc.fault = m.stc.fault ∨ y.stc.fault = some ⟨.setLost, m.stc.now, m.cfg.station⟩
  current : ∃ f, y.rmu.current = some f ∧ f.frame = (m.newSet 0).frame
  next : y.rmu.next = none
  nextSet : y.rmu.nextSet = m.useSetNumber.rmu.nextSet
  mem : c ∈ y.rmu.closed
  closed : c = ⟨{ cur with
      interrupted := true
      cut := some m.lcu.coord
      entries := cur.entries.filterMap (keptPart (endLength cur.start m.lcu.coord)) },
    endLength cur.start m.lcu.coord, m.lcu.epoch, .none, false⟩
  lpt : cur.entries.length ≤ 256 → y.lpt = m.loseOldest.lpt

theorem State.dropAll_eq (es : List RollEntry) (s : State) (r : RollSet) :
    (s.dropAll r es).1 = s.withLpt (s.dropAll r es).1.lpt := by
  induction es generalizing s r with
  | nil => rfl
  | cons e es ih =>
    have hdrop : (s.dropEntry r e).1 = s.withLpt (s.dropEntry r e).1.lpt := by
      simp only [State.dropEntry]
      split <;> rfl
    have hcons : (s.dropAll r (e :: es)).1 = ((s.dropEntry r e).1.dropAll (s.dropEntry r e).2 es).1 := rfl
    rw [hcons]
    exact (ih _ _).trans ((congrArg (fun t : State => t.withLpt _) hdrop).trans (State.withLpt_withLpt ..))

theorem State.closeAt_eq (s : State) (cur fol : RollSet) (k : Coord) :
    (s.closeAt cur fol k).1 = s.withLpt (s.closeAt cur fol k).1.lpt := State.dropAll_eq ..

theorem State.closedFresh_spec (m : State) (cur : RollSet) :
    ClosedFresh m (m.closedFresh cur).1 (m.closedFresh cur).2 cur := by
  have hsame := m.useSetNumber.closeAt_eq { cur with interrupted := true } (m.newSet 0) m.lcu.coord
  have hroom : cur.entries.length ≤ 256 → _ := fun h => m.useSetNumber.closeAt_of_room
    (cur := { cur with interrupted := true }) (fol := m.newSet 0) m.lcu.coord h rfl
  have hfol := m.useSetNumber.closeAt_frame { cur with interrupted := true } (m.newSet 0) m.lcu.coord
  have hc : (m.useSetNumber.closeAt { cur with interrupted := true } (m.newSet 0) m.lcu.coord).2.1 =
    ⟨{ cur with
        interrupted := true
        cut := some m.lcu.coord
        entries := cur.entries.filterMap (keptPart (endLength cur.start m.lcu.coord)) },
      endLength cur.start m.lcu.coord, m.lcu.epoch, .none, false⟩ := rfl
  unfold State.closedFresh
  generalize m.useSetNumber.closeAt { cur with interrupted := true } (m.newSet 0) m.lcu.coord = x at *
  obtain ⟨y, c, f⟩ := x
  simp only at *
  obtain ⟨cs, p, happ, hmem⟩ := y.appendClosed_eq c
  obtain ⟨l, rfl⟩ : ∃ l, y = m.useSetNumber.withLpt l := ⟨_, hsame⟩
  have hlpt : cur.entries.length ≤ 256 → (m.useSetNumber.withLpt l).loseOldest.lpt = m.loseOldest.lpt := fun h => by
    rw [hroom h]
    unfold State.loseOldest
    cases hclosed : m.rmu.closed with
    | nil => simp [State.useSetNumber, hclosed]
    | cons oldest rest =>
      simp only [State.useSetNumber, State.rmu_withRmu, hclosed]
      split <;> rfl
  obtain ⟨fault, counters, hlost, hfault⟩ := (m.useSetNumber.withLpt l).loseOldest_eq
  generalize (m.useSetNumber.withLpt l).loseOldest.lpt = l' at *
  rw [State.replaceCurrent, happ, hlost]
  exact ⟨rfl, hfault, ⟨f, rfl, hfol⟩, rfl, rfl, hmem, hc, hlpt⟩

/-- A set is closed as INTERRUPTED with its pulse and its notice (R139). -/
theorem State.interruptSet_of_current {s m : State} {cur : RollSet} (hmerge : s.mergeBack = m)
    (hcur : m.rmu.current = some cur) (hidle : ∀ ch, (m.channel ch).state = .idle) (hspill : m.mke.spill = none)
    (hretired : m.mke.retired = 0) :
    s.interruptSet =
      (
        let u := ((m.closedFresh cur).1.resetPulse).notice .setClosed (some m.cfg.station) none
          (setClosedValue (m.closedFresh cur).2)
        u.withRmu { u.rmu with pendingRead := none }) := by
  have hclosed := m.closedFresh_spec cur
  have hpulse : (match (m.closedFresh cur).1.cfg.cutChannel with
      | some ch => if (m.closedFresh cur).1.unitOf ch = WidthUnit.ms then (m.closedFresh cur).1.cutPulse m.lcu.coord
        else (m.closedFresh cur).1
      | none => (m.closedFresh cur).1) = (m.closedFresh cur).1.resetPulse := by
    have hidle' : ∀ ch, ((m.closedFresh cur).1.channel ch).state = .idle := fun ch => by
      rw [hclosed.frame]
      exact hidle ch
    have hmke : (m.closedFresh cur).1.mke = m.mke := by rw [hclosed.frame]; rfl
    unfold State.resetPulse
    cases hch : (m.closedFresh cur).1.cfg.cutChannel with
    | none => rfl
    | some ch =>
      simp only
      split
      · next hms => exact State.cutPulse_of_idle hch hms (hidle' ch) (hmke ▸ hspill) (hmke ▸ hretired) _
      · rfl
  have hcfg : (m.closedFresh cur).1.resetPulse.cfg = m.cfg := by
    have hstc : (m.closedFresh cur).1.resetPulse.stc = (m.closedFresh cur).1.stc := by
      unfold State.resetPulse
      split
      · split <;> simp
      · rfl
    rw [State.cfg, hstc, hclosed.frame]
    rfl
  unfold State.interruptSet
  simp only [hmerge, hcur]
  rw [← hcfg, ← hpulse] <;> rfl

/-! ### The warm reset -/

/-- The CUTOVER frames reported abandoned change announcements alone (R124, R163). -/
structure Abandoned (v w : State) : Prop where
  frame : w = v.withRmu { v.rmu with closed := w.rmu.closed }
  mem : ∀ c ∈ v.rmu.closed, ∃ a, { c with announcement := a } ∈ w.rmu.closed

theorem Abandoned.announce {v w : State} (h : Abandoned v w) (n : Nat) (a : Announcement) :
    Abandoned v (w.announce n a) := by
  refine ⟨?_, fun c hc => ?_⟩
  · rw [h.frame]
    rfl
  · obtain ⟨b, hb⟩ := h.mem c hc
    refine ⟨if c.set.number = n then a else b, List.mem_map.mpr ⟨_, hb, ?_⟩⟩
    simp only
    split <;> rfl

theorem State.warmLine_abandoned (v : State) : Abandoned v v.warmLine := by
  have hqueue : Abandoned v (v.lbi.outbound.foldl (fun t f => t.reportAbandoned f) v) := by
    refine foldl_kept (Abandoned v) (fun t f h => ?_) _ ⟨rfl, fun c hc => ⟨c.announcement, hc⟩⟩
    cases f with
    | cutover k n => exact h.announce n .notSent
    | _ => exact h
  unfold State.warmLine State.abandonLoopback
  split
  · split
    · exact hqueue.announce _ _
    all_goals exact hqueue
  · exact hqueue

/-- The state a warm reset closes the set being wound in. -/
def State.cleared (s : State) : State := ((s.withMke s.mke.warm).withScu s.scu.warm).withAou s.aou.idled

/-- What the close of the set being wound touches at a warm reset. -/
structure Rewound (t v : State) : Prop where
  frame : v = (((t.withAou v.aou).withStc { t.stc with
    fault := v.stc.fault, counters := v.stc.counters }).withLpt v.lpt).withRmu v.rmu
  fault : v.stc.fault = t.stc.fault ∨ v.stc.fault = some ⟨.setLost, t.stc.now, t.cfg.station⟩

theorem State.resetPulse_eq (s : State) : s.resetPulse = s.withAou s.resetPulse.aou := by
  unfold State.resetPulse
  split
  · split <;> rfl
  · rfl

/-- The state with its set merged back touches notices and roll sets alone. -/
theorem State.mergeBack_eq (s : State) : s.mergeBack = (s.withLpt s.mergeBack.lpt).withRmu s.mergeBack.rmu := by
  cases hcur : s.rmu.current with
  | none => simp [State.mergeBack, hcur]; rfl
  | some cur =>
    cases hnxt : s.rmu.next with
    | none => simp [State.mergeBack, hcur, hnxt]; rfl
    | some nxt =>
      rw [State.mergeBack_of_closing hcur hnxt]
      rfl

theorem State.isSome_mergeBack (s : State) : s.mergeBack.rmu.current.isSome = s.rmu.current.isSome := by
  cases hcur : s.rmu.current with
  | none => simp [State.mergeBack, hcur]
  | some cur =>
    cases hnxt : s.rmu.next with
    | none => simp [State.mergeBack, hcur, hnxt]
    | some nxt =>
      rw [State.mergeBack_of_closing hcur hnxt]
      rfl

/-- The set being wound, closed at a warm reset. -/
structure Interrupted (s v : State) (m : State) (cur : RollSet) : Prop where
  rewound : Rewound s.cleared v
  aou : v.aou = s.cleared.resetPulse.aou
  lpt : cur.entries.length ≤ 256 → v.lpt = (m.loseOldest.notice .setClosed (some s.cfg.station) none
    (packHalves cur.number (min 65535 (endLength cur.start s.lcu.coord / 10000)))).lpt
  current : ∃ f, v.rmu.current = some f ∧ f.frame = (m.newSet 0).frame
  next : v.rmu.next = none
  nextSet : v.rmu.nextSet = m.useSetNumber.rmu.nextSet
  pending : v.rmu.pendingRead = none
  closed : ⟨{ cur with
      interrupted := true
      cut := some s.lcu.coord
      entries := cur.entries.filterMap (keptPart (endLength cur.start s.lcu.coord)) },
    endLength cur.start s.lcu.coord, s.lcu.epoch, .none, false⟩ ∈ v.rmu.closed

/-- The pulse goes by settings, time and channels. -/
theorem State.resetPulse_congr {s t : State} (hcfg : t.cfg = s.cfg) (hnow : t.stc.now = s.stc.now)
    (haou : t.aou = s.aou) :
    t.resetPulse.aou = s.resetPulse.aou := by
  unfold State.resetPulse
  simp only [State.unitOf, State.ahead, State.setChannel, hcfg, hnow, haou]
  cases s.cfg.cutChannel with
  | none => exact haou
  | some ch => by_cases hms : (s.cfg.outputs.get ch).unit = .ms <;> simp [hms, haou]

theorem State.warmBlocks_interrupted {s : State} {cur : RollSet}
    (hcur : s.cleared.mergeBack.rmu.current = some cur) :
    Interrupted s s.warmBlocks s.cleared.mergeBack cur := by
  have hsame := s.cleared.mergeBack_eq
  generalize hm : s.cleared.mergeBack = m at *
  obtain ⟨l, r, rfl⟩ : ∃ l r, m = (s.cleared.withLpt l).withRmu r := ⟨_, _, hsame⟩
  have hidle : ∀ ch, (((s.cleared.withLpt l).withRmu r).channel ch).state = .idle := fun ch => by
    change (s.aou.idled.channels.get ch).state = .idle
    rw [(Aou.get_idled s.aou ch).1]
  have heq : s.warmBlocks = _ := State.interruptSet_of_current hm hcur hidle rfl rfl
  have hclosed := ((s.cleared.withLpt l).withRmu r).closedFresh_spec cur
  generalize ((s.cleared.withLpt l).withRmu r).closedFresh cur = x at *
  obtain ⟨y, c⟩ := x
  simp only at heq
  have hc : c = _ := hclosed.closed
  have hmem : c ∈ y.rmu.closed := hclosed.mem
  have hlpt : cur.entries.length ≤ 256 → y.lpt = _ := hclosed.lpt
  have hfault := hclosed.fault
  have hcurrent := hclosed.current
  have hnext := hclosed.next
  have hnextSet := hclosed.nextSet
  obtain ⟨f, cs, l', r', rfl⟩ : ∃ f cs l' r', y = ((((s.cleared.withLpt l).withRmu r).withStc { s.cleared.stc with
    fault := f, counters := cs }).withLpt l').withRmu r' := ⟨_, _, _, _, hclosed.frame⟩
  have hpulse := State.resetPulse_eq ((((((s.cleared.withLpt l).withRmu r).withStc { s.cleared.stc with
    fault := f, counters := cs }).withLpt l').withRmu r'))
  have haou := State.resetPulse_congr (s := s.cleared) (t := (((((s.cleared.withLpt l).withRmu r).withStc
    { s.cleared.stc with fault := f, counters := cs }).withLpt l').withRmu r')) rfl rfl rfl
  rw [haou] at hpulse
  rw [hpulse] at heq
  rw [heq]
  refine ⟨⟨rfl, hfault⟩, rfl, fun h => ?_, hcurrent, hnext, hnextSet, rfl, hc ▸ hmem⟩
  obtain ⟨f', cs', hlost, -⟩ := ((s.cleared.withLpt l).withRmu r).loseOldest_eq
  have hlcu := congrArg State.lcu hlost
  have hnow := congrArg (fun t : State => t.stc.now) hlost
  rw [hc]
  exact State.lpt_notice_congr (hlpt h) hnow.symm (congrArg Lcu.synced hlcu.symm) (congrArg Lcu.coord hlcu.symm) ..

/-- Where no set is being wound, there is none to close. -/
theorem State.warmBlocks_of_none {s : State} (hcur : s.rmu.current = none) : s.warmBlocks = s.cleared := by
  have hmerge : s.cleared.mergeBack = s.cleared := by
    have hcur' : s.cleared.rmu.current = none := hcur
    simp [State.mergeBack, hcur']
  change s.cleared.interruptSet = s.cleared
  unfold State.interruptSet
  have hcur' : s.cleared.rmu.current = none := hcur
  simp only [hmerge, hcur']

/-- The channels after the pulse of a warm reset, from IDLE. -/
theorem State.get_resetPulse {s : State} (hidle : ∀ ch, s.aou.channels.get ch = ⟨.idle, 0⟩) (ch : Fin 4) :
    if s.cfg.cutChannel = some ch ∧ (s.cfg.outputs.get ch).unit = .ms then
      s.resetPulse.aou.channels.get ch = ⟨.pulsing (s.stc.now + BitVec.ofNat 32 s.cfg.cutWidth), 0⟩ ∧
        s.resetPulse.aou.edges.get ch = s.aou.edges.get ch + 1
    else s.resetPulse.aou.channels.get ch = ⟨.idle, 0⟩ ∧ s.resetPulse.aou.edges.get ch = s.aou.edges.get ch := by
  unfold State.resetPulse
  cases hcut : s.cfg.cutChannel with
  | none => simp [hidle]
  | some c =>
    by_cases hms : (s.cfg.outputs.get c).unit = .ms
    · by_cases hc : c = ch
      · subst hc
        simp [hms, State.unitOf, State.setChannel, Aou.get_put, Aou.edges_put, hidle, State.ahead]
      · have hc' : ch ≠ c := fun h => hc h.symm
        simp [hms, State.unitOf, State.setChannel, Aou.get_put, Aou.edges_put, hidle, hc, hc']
    · have hno : ¬ (some c = some ch ∧ (s.cfg.outputs.get ch).unit = .ms) := by
        rintro ⟨h, h'⟩
        cases h
        exact hms h'
      rw [if_neg hno]
      simp [hms, State.unitOf, hidle]

/-- The part after a RESTART, from the state its blocks are in before the line and the claims are reset. -/
theorem State.restarted_eq (s : State) : s.warmReset.enterJoining =
    ((((s.warmBlocks.warmLine.withLcu { s.warmBlocks.warmLine.lcu.warm with joinSync := .adopting }).withStc
      { s.warmBlocks.warmLine.stc with
        station := .joining
        join := some (s.warmBlocks.warmLine.stc.now + BitVec.ofNat 32 s.warmBlocks.warmLine.cfg.joinInterval) }).withHtu
      ⟨[⟨s.warmBlocks.warmLine.cfg.station, 3, .desync, none, false⟩], List.replicate 24 none,
        some (s.warmBlocks.warmLine.stc.now + BitVec.ofNat 32 s.warmBlocks.warmLine.cfg.refreshPeriod), 0,
        s.warmBlocks.warmLine.htu.flashes⟩).withLbi
      ⟨.ready, .waitIdle, 0, false, none, [.hold 3 .desync none], [.census, .claims], none, none, [], [],
        none, false, false⟩) := by
  rw [State.warmReset_eq]
  generalize s.warmBlocks.warmLine = w
  exact State.joinClaims_of_empty (t := (((((w.withLbi w.lbi.warm).withHtu w.htu.warm).withLcu w.lcu.warm).withStc
    { w.stc with
      station := .joining
      join := some (w.stc.now + BitVec.ofNat 32 w.cfg.joinInterval) }).withLcu
        { w.lcu.warm with joinSync := .adopting }))
    rfl rfl rfl rfl rfl rfl rfl

/-- What every close of the set being wound leaves alone, and the outputs after it. -/
theorem State.warmBlocks_rewound (s : State) : Rewound s.cleared s.warmBlocks ∧
    s.warmBlocks.aou = if s.rmu.current = none then s.cleared.aou else s.cleared.resetPulse.aou := by
  cases hcur : s.rmu.current with
  | none =>
    rw [State.warmBlocks_of_none hcur]
    exact ⟨⟨rfl, .inl rfl⟩, rfl⟩
  | some cur =>
    have hsome : s.cleared.mergeBack.rmu.current.isSome = true := by
      rw [State.isSome_mergeBack]
      exact congrArg Option.isSome hcur
    obtain ⟨cur', hcur'⟩ := Option.isSome_iff_exists.mp hsome
    have h := State.warmBlocks_interrupted hcur'
    exact ⟨h.rewound, by rw [if_neg (by simp), h.aou]⟩

/-- The number of entries a merged set has where none is dropped. -/
theorem length_foldl_insertEntry (es zs : List RollEntry) :
    (es.foldl (fun zs y => insertEntry y zs) zs).length = zs.length + es.length := by
  induction es generalizing zs with
  | nil => rfl
  | cons e es ih =>
    rw [List.foldl_cons, ih, insertEntry, length_insertByKey, List.length_cons]
    omega

theorem State.merged_of_room {s : State} {cur nxt : RollSet} (h : cur.entries.length + nxt.entries.length ≤ 256) :
    (s.enterAll cur (takenBack cur nxt)).1 = s ∧
      (s.merged cur nxt).overflow = (cur.overflow || nxt.overflow) ∧
      (s.merged cur nxt).entries = (takenBack cur nxt).foldl (fun zs y => insertEntry y zs) cur.entries := by
  have hroom := State.enterAll_of_room (takenBack cur nxt) s (r := cur) (by simpa [takenBack] using h)
  unfold State.merged
  rw [hroom]
  exact ⟨rfl, rfl, rfl⟩

/-- The notice that the oldest closed set is lost, where it is due. -/
def State.noticeLost (s : State) : State :=
  match s.rmu.closed with
  | oldest :: _ => if 4 ≤ s.rmu.closed.length then s.notice .setLost none none (some
      ((BitVec.ofNat 32 oldest.set.number <<< 16) ||| (if oldest.read then 1#32 else 0#32))) else s
  | [] => s

theorem State.noticeLost_eq (s : State) : s.noticeLost = s.withLpt s.noticeLost.lpt := by
  unfold State.noticeLost
  split
  · split <;> rfl
  · rfl

/-- The loss of a set goes by the closed sets. -/
theorem State.lpt_loseOldest {s t : State} (hclosed : t.rmu.closed = s.rmu.closed) (hlpt : t.lpt = s.lpt)
    (hnow : t.stc.now = s.stc.now) (hlcu : t.lcu = s.lcu) : t.loseOldest.lpt = s.noticeLost.lpt := by
  unfold State.loseOldest State.noticeLost
  rw [hclosed]
  cases s.rmu.closed with
  | nil => exact hlpt
  | cons oldest rest =>
    simp only
    split
    · have hvalue : packHalves oldest.set.number oldest.read.toNat =
          some ((BitVec.ofNat 32 oldest.set.number <<< 16) ||| (if oldest.read then 1#32 else 0#32)) := by
        cases oldest.read <;> rfl
      rw [hvalue]
      exact State.lpt_notice_congr hlpt hnow (congrArg Lcu.synced hlcu) (congrArg Lcu.coord hlcu) ..
    · exact hlpt

/-- The blocks once the set being wound is closed and the CUTOVER frames are abandoned. -/
structure WarmBlocks (s w : State) : Prop where
  stc : w.stc = { s.stc with fault := s.warmBlocks.stc.fault, counters := s.warmBlocks.stc.counters }
  fault : w.stc.fault = s.stc.fault ∨ w.stc.fault = some ⟨.setLost, s.stc.now, s.cfg.station⟩
  lcu : w.lcu = s.lcu
  mke : w.mke = s.mke.warm
  scu : w.scu = s.scu.warm
  htu : w.htu = s.htu
  pins : w.pins = s.pins
  aou : w.aou = if s.rmu.current = none then s.cleared.aou else s.cleared.resetPulse.aou
  lpt : w.lpt = s.warmBlocks.lpt
  rmu : w.rmu = { s.warmBlocks.rmu with closed := w.rmu.closed }
  mem : ∀ c ∈ s.warmBlocks.rmu.closed, ∃ a, { c with announcement := a } ∈ w.rmu.closed

theorem State.warmLine_warmBlocks (s : State) : WarmBlocks s s.warmBlocks.warmLine := by
  obtain ⟨hframe, hmem⟩ := s.warmBlocks.warmLine_abandoned
  obtain ⟨⟨hrewound, hfault⟩, haou⟩ := s.warmBlocks_rewound
  generalize hw : s.warmBlocks.warmLine = w at *
  have hstc : w.stc = s.warmBlocks.stc := by rw [hframe]; rfl
  refine ⟨?_, ?_, ?_, ?_, ?_, ?_, ?_, ?_, ?_, ?_, hmem⟩
  · rw [hstc, hrewound]
    rfl
  · rw [hstc]
    exact hfault
  · rw [hframe, hrewound]
    rfl
  · rw [hframe, hrewound]
    rfl
  · rw [hframe, hrewound]
    rfl
  · rw [hframe, hrewound]
    rfl
  · rw [hframe, hrewound]
    rfl
  · rw [← haou, hframe]
    rfl
  · rw [hframe]
    rfl
  · rw [hframe]
    rfl

/-- The channels after a RESTART. -/
theorem WarmBlocks.get_aou {s w : State} (h : WarmBlocks s w) (ch : Fin 4) :
    (
      let quiet := s.aou.edges.get ch + (if (s.aou.channels.get ch).state = .idle then 0 else 1)
      if s.rmu.current ≠ none ∧ s.cfg.cutChannel = some ch ∧ (s.cfg.outputs.get ch).unit = .ms then
        w.aou.channels.get ch = ⟨.pulsing (s.stc.now + BitVec.ofNat 32 s.cfg.cutWidth), 0⟩ ∧
        w.aou.edges.get ch = quiet + 1
      else w.aou.channels.get ch = ⟨.idle, 0⟩ ∧ w.aou.edges.get ch = quiet) := by
  intro quiet
  have hquiet : s.aou.idled.edges.get ch = quiet := by
    rw [(Aou.get_idled s.aou ch).2]
    simp only [quiet]
    cases (s.aou.channels.get ch).state <;> rfl
  have hpulse := State.get_resetPulse (s := s.cleared) (fun i => (Aou.get_idled s.aou i).1) ch
  rw [h.aou]
  by_cases hcur : s.rmu.current = none
  · rw [if_pos hcur, if_neg fun hall => hall.1 hcur]
    exact ⟨(Aou.get_idled s.aou ch).1, hquiet⟩
  · rw [if_neg hcur]
    by_cases hms : s.cfg.cutChannel = some ch ∧ (s.cfg.outputs.get ch).unit = .ms
    · rw [if_pos ⟨hcur, hms⟩]
      rw [if_pos (show s.cleared.cfg.cutChannel = some ch ∧ (s.cleared.cfg.outputs.get ch).unit = .ms from hms)]
        at hpulse
      exact ⟨hpulse.1, hpulse.2.trans (congrArg (· + 1) hquiet)⟩
    · rw [if_neg fun hall => hms hall.2]
      rw [if_neg (show ¬ (s.cleared.cfg.cutChannel = some ch ∧ (s.cleared.cfg.outputs.get ch).unit = .ms) from hms)]
        at hpulse
      exact ⟨hpulse.1, hpulse.2.trans hquiet⟩

/-- An OPEN set is closed as it is. -/
theorem State.warmBlocks_of_open {s : State} {cur : RollSet} (hcur : s.rmu.current = some cur)
    (hnext : s.rmu.next = none) : Interrupted s s.warmBlocks s.cleared cur := by
  have hmerge : s.cleared.mergeBack = s.cleared := by
    have hnext' : s.cleared.rmu.next = none := hnext
    unfold State.mergeBack
    rw [hnext']
    split <;> simp_all
  have h := State.warmBlocks_interrupted (s := s) (cur := cur) (by rw [hmerge]; exact hcur)
  rwa [hmerge] at h

/-- A CLOSING set first takes back its NEXT set. -/
theorem State.warmBlocks_of_closing {s : State} {cur nxt : RollSet} (hcur : s.rmu.current = some cur)
    (hnext : s.rmu.next = some nxt) : Interrupted s s.warmBlocks s.cleared.mergeBack (s.cleared.merged cur nxt) :=
  State.warmBlocks_interrupted (by
    rw [State.mergeBack_of_closing (s := s.cleared) hcur hnext]
    rfl)

/-- The notices of a RESTART, where no entry is dropped. -/
theorem State.lpt_warmBlocks {s : State} {cur : RollSet} (hcur : s.rmu.current = some cur)
    (hroom : cur.entries.length + (match s.rmu.next with
      | none => 0
      | some nxt => nxt.entries.length) ≤ 256) :
    s.warmBlocks.lpt = (s.noticeLost.notice .setClosed (some s.cfg.station) none
      (packHalves cur.number (min 65535 (endLength cur.start s.lcu.coord / 10000)))).lpt := by
  have hnotice : ∀ m : State, m.rmu.closed = s.rmu.closed → m.lpt = s.lpt → m.stc.now = s.stc.now → m.lcu = s.lcu →
      ∀ v, (m.loseOldest.notice .setClosed (some s.cfg.station) none v).lpt =
        (s.noticeLost.notice .setClosed (some s.cfg.station) none v).lpt := by
    intro m hclosed hlpt hnow hlcu v
    obtain ⟨f, cs, hlost, -⟩ := m.loseOldest_eq
    have hnow' : m.loseOldest.stc.now = s.stc.now := (congrArg (fun t : State => t.stc.now) hlost).trans hnow
    have hlcu' : m.loseOldest.lcu = s.lcu := (congrArg State.lcu hlost).trans hlcu
    have hstc := congrArg State.stc s.noticeLost_eq
    have hlcu'' := congrArg State.lcu s.noticeLost_eq
    exact State.lpt_notice_congr (State.lpt_loseOldest hclosed hlpt hnow hlcu)
      (hnow'.trans (congrArg Stc.now hstc).symm) (congrArg Lcu.synced (hlcu'.trans hlcu''.symm))
      (congrArg Lcu.coord (hlcu'.trans hlcu''.symm)) ..
  cases hnext : s.rmu.next with
  | none =>
    rw [hnext] at hroom
    rw [(State.warmBlocks_of_open hcur hnext).lpt (by simpa using hroom)]
    exact hnotice s.cleared rfl rfl rfl rfl _
  | some nxt =>
    rw [hnext] at hroom
    obtain ⟨hsame, -, hentries⟩ := State.merged_of_room (s := s.cleared) hroom
    obtain ⟨hnumber, hstart, -⟩ := RollSet.frame_iff.mp (s.cleared.merged_frame cur nxt)
    rw [(State.warmBlocks_of_closing hcur hnext).lpt (by
      rw [hentries, length_foldl_insertEntry]
      simpa [takenBack] using hroom), hnumber, hstart, State.mergeBack_of_closing (s := s.cleared) hcur hnext, hsame]
    refine hnotice ((s.cleared.withLpt s.cleared.lpt).withRmu ?_) ?_ ?_ ?_ ?_ ?_ <;> rfl

/-- Settles O53: the close of the set being wound, the abandoned frames, and the entry to JOINING. -/
theorem restartMakesAWarmReset : Obligations.RestartMakesAWarmReset := by
  intro s req
  have hexec : exec .restart s = .next ((s.warmReset.enterJoining).answer .restart .ok).driven := takeRequest_next req _
  have h := s.warmLine_warmBlocks
  refine ⟨_, hexec, ?_⟩
  rw [State.restarted_eq]
  generalize s.warmBlocks.warmLine = w at *
  have hcfg : w.cfg = s.cfg := by rw [State.cfg, h.stc]; rfl
  have hnow : w.stc.now = s.stc.now := by rw [h.stc]
  have hconfig : w.stc.config = s.stc.config := by rw [h.stc]
  have hlocked : w.stc.locked = s.stc.locked := by rw [h.stc]
  refine ⟨rfl, ?_, ?_, hnow, ?_, h.fault, ?_, ?_, ?_, ?_, ?_, ?_, ?_, fun n => ?_, ?_, ?_, h.get_aou, rfl, rfl,
    h.pins, ⟨fun hcur => ?_, fun cur hcur hroom => ?_⟩, fun hcur => ?_, fun cur hcur hcut hnext => ?_,
    fun cur nxt k hcur hcut hnext => ?_⟩
  · exact hconfig
  · exact hlocked
  · rw [← hnow, ← hcfg]
    rfl
  · rw [State.lcu_answer]
    change { w.lcu.warm with joinSync := .adopting } = _
    rw [h.lcu]
    rfl
  · exact (congrArg Mke.queue h.mke :)
  · exact (congrArg Mke.spill h.mke :)
  · exact (congrArg Mke.origins h.mke :)
  · exact (congrArg Mke.nextNumber h.mke :)
  · exact (congrArg Mke.freshPending h.mke :)
  · exact (congrArg Mke.lastPosted h.mke :)
  · change w.scu.filtered.get n = _ ∧ w.scu.captures.get n = _ ∧ w.scu.windows.get n = _
    rw [h.scu]
    match n with
    | 0 | 1 | 2 | 3 => exact ⟨rfl, rfl, rfl⟩
  · exact (congrArg Scu.misses h.scu :)
  · rw [← h.htu, ← hcfg, ← hnow]
    rfl
  · have hlpt : w.lpt = s.lpt := by
      rw [h.lpt, State.warmBlocks_of_none hcur]
      rfl
    exact congrArg (fun l : Lpt => ({ l with slot := .ready ⟨0x02, .ok, []⟩ } : Lpt)) hlpt
  · have hlpt := h.lpt.trans (State.lpt_warmBlocks hcur hroom)
    exact congrArg (fun l : Lpt => ({ l with slot := .ready ⟨0x02, .ok, []⟩ } : Lpt)) hlpt
  · change w.rmu = { s.rmu with closed := w.rmu.closed }
    rw [h.rmu, State.warmBlocks_of_none hcur]
    rfl
  · have hint := State.warmBlocks_of_open hcur hnext
    obtain ⟨fol, hfol, hframe⟩ := hint.current
    obtain ⟨hnumber, hstart, -⟩ := RollSet.frame_iff.mp hframe
    obtain ⟨a, ha⟩ := h.mem _ hint.closed
    have hrmu := h.rmu
    refine ⟨fol, _, ?_, hstart, hnumber, ?_, ?_, ha, rfl, rfl, rfl⟩
    · exact (congrArg Rmu.current hrmu).trans hfol
    · exact (congrArg Rmu.next hrmu).trans hint.next
    · exact (congrArg Rmu.pendingRead hrmu).trans hint.pending
  · have hint := State.warmBlocks_of_closing hcur hnext
    have hmerge := State.mergeBack_of_closing (s := s.cleared) hcur hnext
    obtain ⟨fol, hfol, hframe⟩ := hint.current
    obtain ⟨hnumber, hstart, -⟩ := RollSet.frame_iff.mp hframe
    obtain ⟨hnumber', hstart', -, hfollowed', huncertain', -⟩ :=
      RollSet.frame_iff.mp (s.cleared.merged_frame cur nxt)
    obtain ⟨a, ha⟩ := h.mem _ hint.closed
    have hrmu := h.rmu
    have hnextSet : s.cleared.mergeBack.rmu.nextSet = nxt.number := by rw [hmerge]; rfl
    refine ⟨fol, _, ?_, hstart, hnumber.trans hnextSet, ?_, ?_, ?_, ha, hnumber', hstart', rfl, hfollowed', rfl,
      huncertain', ?_, fun hroom => ?_⟩
    · exact (congrArg Rmu.current hrmu).trans hfol
    · refine (congrArg Rmu.nextSet hrmu).trans (hint.nextSet.trans ?_)
      change (if s.cleared.mergeBack.rmu.nextSet < 65535 then s.cleared.mergeBack.rmu.nextSet + 1 else 1) = _
      rw [hnextSet]
    · exact (congrArg Rmu.next hrmu).trans hint.next
    · exact (congrArg Rmu.pendingRead hrmu).trans hint.pending
    · simp only [hstart']
      rfl
    · obtain ⟨-, hoverflow, hentries⟩ := State.merged_of_room (s := s.cleared) hroom
      refine ⟨hoverflow, ?_⟩
      simp only [hentries]
      rfl

end Sys2Proof.Machine
end

section
/-! What a receiver does with the frames it reads (R152 to R154, R157, R162, R171). -/

namespace Sys2Proof.Machine

/-! ### Faulty frames, and frames of other stations -/

theorem State.receiving_iff {s : State} : s.receiving = true ↔
    s.live = true ∧ s.lbi.mode ≠ .off ∧ s.lbi.line = .frame ∧ s.lbi.attempt = none := by
  simp [State.receiving, State.reading, and_assoc]

theorem exec_receiveError {s : State} {bits : List Bool} {cause : Nat} (hr : s.receiving = true)
    (hb : readFrame bits = .fault cause) :
    exec (.receiveError bits) s = .next (s.discardFrame cause (trailingRecessive bits)).driven := by
  change execReceiveError bits s = _
  rw [execReceiveError, hr, hb]
  rfl

theorem exec_validFrameEnd {s : State} {bits : List Bool} {f : LineFrame} (o : NoticeOrder) (hr : s.receiving = true)
    (hb : readFrame bits = .valid f) :
    exec (.validFrameEnd bits o) s = .next (s.receiveFrame f (trailingRecessive bits) o).driven := by
  change execValidFrameEnd bits o s = _
  rw [execValidFrameEnd, hr, hb]
  rfl

/-! ### A frame of the own number -/

/-- What is discarded at an entry to SILENT concerns the line, and announcements. -/
theorem State.discardOutbound_eq (s : State) : ∃ cs, s.discardOutbound =
    ((s.withRmu { s.rmu with closed := cs }).withLbi
    { s.lbi with
      urgent := []
      normal := []
      slot := none
      attempt := none
      deferred := []
      quiet := none
      yieldPending := false
      mode := .mute }).notice .outboundDiscarded none none (some (BitVec.ofNat 32 s.lbi.outbound.length)) := by
  have hreport : ∃ cs, s.lbi.outbound.foldl (fun t f => t.reportAbandoned f) s =
      s.withRmu { s.rmu with closed := cs } := by
    refine foldl_kept (fun t => ∃ cs, t = s.withRmu { s.rmu with closed := cs }) (fun t f h => ?_) _ ⟨_, rfl⟩
    obtain ⟨cs, rfl⟩ := h
    cases f with
    | cutover k n => exact ⟨_, rfl⟩
    | _ => exact ⟨cs, rfl⟩
  obtain ⟨cs, hcs⟩ := hreport
  refine ⟨cs, ?_⟩
  unfold State.discardOutbound
  simp only
  rw [hcs]
  rfl

/-- A notice placed where there is room for two stands in the queue, after one more as well. -/
theorem Lpt.mem_place (l : Lpt) (n : Notice) (h : l.notices.length < 32) : n ∈ (l.place n).notices := by
  simp [Lpt.place, h]

theorem Lpt.mem_place_of_mem {l : Lpt} {m : Notice} (h : m ∈ l.notices) (n : Notice) : m ∈ (l.place n).notices := by
  unfold Lpt.place
  split
  · exact List.mem_append_left _ h
  · exact h

theorem Lpt.length_place_le (l : Lpt) (n : Notice) : (l.place n).notices.length ≤ l.notices.length + 1 := by
  unfold Lpt.place
  split <;> simp

theorem State.offerInbound_of_room {t : State} (h : t.lbi.inbound.length < 8) (f : LineFrame) :
    t.offerInbound f = t.withLbi { t.lbi with inbound := t.lbi.inbound ++ [⟨f, t.lcu.raw⟩], overrunRun := false } :=
  if_pos h

/-- A frame that finds the buffer full is counted, and noticed once in a run (R154). -/
theorem State.offerInbound_of_full {t : State} (h : 8 ≤ t.lbi.inbound.length) (f : LineFrame) :
    t.offerInbound f = if t.lbi.overrunRun then t.count .inboundOverruns
      else (((t.count .inboundOverruns).notice .inboundOverrun (some f.origin) none (valueOf f.kind.byte)).recordFault
        .inboundOverrun f.origin).withLbi { t.lbi with overrunRun := true } :=
  if_neg (Nat.not_lt.mpr h)

/-- An entry to SILENT (R171, R114, R162): the two notices in either order. -/
theorem State.enterSilent_eq (t : State) (o : NoticeOrder) (k : FrameKind) : ∃ (cs : List ClosedSet) (m n : Notice),
    (m.kind = .duplicateStation ∧ m.origin = some t.cfg.station ∧ m.value = some (BitVec.ofNat 32 k.byte)) ∧
    n.kind = .outboundDiscarded ∧
    t.enterSilent o k = ((((t.withStc { t.stc with
        station := .silent
        join := none
        fault := some ⟨.duplicateStation, t.stc.now, t.cfg.station⟩ }).withHtu
      { t.htu with refresh := none, tail := 0 }).withRmu { t.rmu with closed := cs }).withLbi { t.lbi with
        urgent := []
        normal := []
        slot := none
        attempt := none
        deferred := []
        quiet := none
        yieldPending := false
        mode := .mute }).withLpt (match o with
          | .listed => (t.lpt.place m).place n
          | .reversed => (t.lpt.place n).place m) := by
  unfold State.enterSilent
  simp only
  cases o with
  | listed =>
    obtain ⟨cs, hcs⟩ := State.discardOutbound_eq (State.duplicateFound ((t.withStc { t.stc with
      station := .silent, join := none }).withHtu { t.htu with refresh := none, tail := 0 }) k)
    refine ⟨cs, _, _, ⟨?_, ?_, ?_⟩, ?_, hcs⟩ <;> rfl
  | reversed =>
    obtain ⟨cs, hcs⟩ := State.discardOutbound_eq ((t.withStc { t.stc with
      station := .silent, join := none }).withHtu { t.htu with refresh := none, tail := 0 })
    refine ⟨cs, _, _, ⟨?_, ?_, ?_⟩, ?_, (congrArg (State.duplicateFound · k) hcs :)⟩ <;> rfl

/-- Settles O49. -/
theorem receiverReadsFrames : Obligations.ReceiverReadsFrames := by
  intro bits s hl hmode hline hattempt run
  have hr : s.receiving = true := State.receiving_iff.mpr ⟨hl, hmode, hline, hattempt⟩
  refine ⟨fun cause hb => ?_, fun f order hb horigin => ?_, fun f order hb horigin hst => ?_⟩
  · intro counted
    rw [exec_receiveError hr hb]
    rfl
  · intro read
    have hreceive : s.receiveFrame f run order = read.offerInbound f := if_neg horigin
    rw [exec_validFrameEnd order hr hb, hreceive]
    refine ⟨fun hroom => ?_, fun hfull => ?_⟩
    · rw [State.offerInbound_of_room (t := read) hroom]
      rfl
    · intro counted
      rw [State.offerInbound_of_full (t := read) hfull]
      rfl
  · have hon : s.onLine = true := State.onLine_iff.mpr hst
    have hreceive : s.receiveFrame f run order = (s.withLbi { s.lbi with
        line := .waitIdle, recessiveRun := run, errorRun := false }).enterSilent order f.kind :=
      (if_pos horigin).trans (if_pos hon)
    rw [exec_validFrameEnd order hr hb, hreceive]
    obtain ⟨cs, m, n, hm, hn, heq⟩ := State.enterSilent_eq (s.withLbi { s.lbi with
        line := .waitIdle, recessiveRun := run, errorRun := false }) order f.kind
    rw [heq]
    refine ⟨_, rfl, rfl, rfl, ?_, rfl, rfl, rfl, rfl, rfl, ?_, fun hroom => ?_⟩
    · rw [← hattempt]
      rfl
    · cases order <;> exact (Lpt.slot_place ..).trans (Lpt.slot_place ..)
    · have htwo : ∀ a b : Notice, a ∈ ((s.lpt.place a).place b).notices ∧ b ∈ ((s.lpt.place a).place b).notices :=
        fun a b => ⟨Lpt.mem_place_of_mem (Lpt.mem_place _ _ (by omega)) _,
          Lpt.mem_place _ _ (by have := s.lpt.length_place_le a; omega)⟩
      cases order with
      | listed => exact ⟨⟨m, (htwo m n).1, hm⟩, n, (htwo m n).2, hn⟩
      | reversed => exact ⟨⟨m, (htwo n m).2, hm⟩, n, (htwo n m).1, hn⟩

end Sys2Proof.Machine
end

section
/-! The encoder: what a turn is, the scaling of a count, and the movement handed to each block once (R1, R5, R6,
R10). -/

namespace Sys2Proof.Machine

/-! ### The order of the blocks -/

/-- One more block, where it is not yet in the order. -/
def addBlock (acc : List MoveBlock) (b : MoveBlock) : List MoveBlock := if acc.contains b then acc else acc ++ [b]

theorem foldl_addBlock_of_subset {acc l : List MoveBlock} (h : ∀ b ∈ l, b ∈ acc) : l.foldl addBlock acc = acc := by
  induction l with
  | nil => rfl
  | cons b l ih =>
    have hb : addBlock acc b = acc := if_pos (by simpa using h b (by simp))
    rw [List.foldl_cons, hb]
    exact ih fun c hc => h c (by simp [hc])

theorem foldl_addBlock_of_nodup {acc l : List MoveBlock} (h : (acc ++ l).Nodup) : l.foldl addBlock acc = acc ++ l := by
  induction l generalizing acc with
  | nil => simp
  | cons b l ih =>
    have hb : addBlock acc b = acc ++ [b] :=
      if_neg (by
        have hnot : b ∉ acc := fun hm => (List.nodup_append.mp h).2.2 b hm b (by simp) rfl
        simpa using hnot)
    rw [List.foldl_cons, hb, ih (by simpa using h), List.append_assoc, List.singleton_append]

theorem perm_of_wellFormedOrder {order : List MoveBlock} (h : wellFormedOrder order = true) :
    List.Perm [.mke, .scu, .aou, .rmu] order := by
  simp only [wellFormedOrder, Bool.and_eq_true, beq_iff_eq, List.contains_iff_mem] at h
  obtain ⟨⟨⟨⟨hlength, hmke⟩, hscu⟩, haou⟩, hrmu⟩ := h
  have hsub : List.Subperm [MoveBlock.mke, .scu, .aou, .rmu] order :=
    List.Nodup.subperm (by decide) fun b _ => by cases b <;> assumption
  exact hsub.perm_of_length_le (by simp [hlength])

/-- An order that names each block once is the order in which the blocks take a movement (R6). -/
theorem fullOrder_of_wellFormed {order : List MoveBlock} (h : wellFormedOrder order = true) :
    fullOrder order = order := by
  have hperm := perm_of_wellFormedOrder h
  have hnodup : order.Nodup := hperm.nodup_iff.mp (by decide)
  have hfirst := foldl_addBlock_of_nodup (acc := []) (l := order) (by simpa using hnodup)
  have hrest := foldl_addBlock_of_subset (acc := order) (l := [.mke, .scu, .aou, .rmu])
    fun b hb => hperm.subset hb
  calc fullOrder order
    _ = (order ++ [MoveBlock.mke, .scu, .aou, .rmu]).foldl addBlock [] := rfl
    _ = order := by rw [List.foldl_append, hfirst, List.nil_append, hrest]

theorem before_self (a : BitVec 32) : before a a = false := by simp [before]

theorem State.movedFrom_of_not_before {s : State} {a : Coord} (order : List MoveBlock)
    (h : before a s.lcu.coord = false) : s.movedFrom a order = s := by simp [State.movedFrom, h]

theorem State.movedFrom_of_before {s : State} {a : Coord} {order : List MoveBlock}
    (h : before a s.lcu.coord = true) (hw : wellFormedOrder order = true) :
    s.movedFrom a order = order.foldl (fun t block => t.blockMove a s.lcu.coord block) s := by
  simp [State.movedFrom, h, fullOrder_of_wellFormed hw]

/-! ### The turn -/

theorem turnOf_sensed_of_forward {sense : Sense} {held new : Level × Level} (h : ForwardTurn sense held new) :
    (turnOf held new).sensed sense = .forward := by
  obtain ⟨rfl, rfl⟩ | ⟨rfl, rfl⟩ := h
  · obtain ⟨a, b⟩ := held
    cases a <;> cases b <;> rfl
  · obtain ⟨a, b⟩ := new
    cases a <;> cases b <;> rfl

theorem turnOf_sensed_of_reverse {sense : Sense} {held new : Level × Level} (h : ReverseTurn sense held new) :
    (turnOf held new).sensed sense = .reverse := by
  obtain ⟨rfl, rfl⟩ | ⟨rfl, rfl⟩ := h
  · obtain ⟨a, b⟩ := new
    cases a <;> cases b <;> rfl
  · obtain ⟨a, b⟩ := held
    cases a <;> cases b <;> rfl

/-- A line that changes at a part that decodes is decoded against the levels held. -/
theorem exec_encoderCount {line : EncoderLine} {s : State} {held : Level × Level} (h : EncoderHeld s held)
    (order : List MoveBlock) : exec (.encoderCount line order) s =
      .next ((s.withPins (s.pins.toggle line)).decodeEncoder order).driven :=
  if_pos (by simp [h.live, h.configured])

/-- The levels now at the pins are the levels held (R2). -/
def State.turned (s : State) : State := s.withLcu { s.lcu with levels := some (s.pins.enca, s.pins.encb) }

theorem State.decodeEncoder_of_forward {s : State} {held : Level × Level} (order : List MoveBlock)
    (hl : s.lcu.levels = some held) (h : (turnOf held (s.pins.enca, s.pins.encb)).sensed s.cfg.sense = .forward) :
    s.decodeEncoder order = s.turned.forwardCount order := by
  simp [State.decodeEncoder, State.turned, hl, h]

theorem State.decodeEncoder_of_reverse {s : State} {held : Level × Level} (order : List MoveBlock)
    (hl : s.lcu.levels = some held) (h : (turnOf held (s.pins.enca, s.pins.encb)).sensed s.cfg.sense = .reverse) :
    s.decodeEncoder order = s.turned.reverseCount := by
  simp [State.decodeEncoder, State.turned, hl, h]

/-! ### The forward count -/

/-- Settles O17: quotient and remainder of the scaling, and the movement by the order of the blocks. -/
theorem forwardCountScales : Obligations.ForwardCountScales := by
  intro line order s held new hheld hnew hturn hd
  subst hnew
  have hdecode := State.decodeEncoder_of_forward (s := s.withPins (s.pins.toggle line)) order hheld.levels
    (turnOf_sensed_of_forward hturn)
  have hexec := (exec_encoderCount (line := line) hheld order).trans (by rw [hdecode])
  refine ⟨(s.lcu.remainder + s.cfg.ratioN) / s.cfg.ratioD, (s.lcu.remainder + s.cfg.ratioN) % s.cfg.ratioD, _,
    Nat.div_add_mod' .., Nat.mod_lt _ hd, hexec, State.movedFrom_frame _ _ _, fun hk => ?_, fun hb hw => ?_⟩
  · refine State.movedFrom_of_not_before _ ?_
    change before s.lcu.coord (s.lcu.coord + BitVec.ofNat 32 ((s.lcu.remainder + s.cfg.ratioN) / s.cfg.ratioD)) = _
    rw [hk]
    simp [before_self]
  · refine (State.movedFrom_of_before hb hw).trans ?_
    exact congrArg (fun f => order.foldl f _) (funext₂ fun v block => by cases block <;> rfl)

/-! ### The reverse count -/

theorem reverseStep_of_le {r n : Nat} (d : Nat) (h : n ≤ r) : reverseStep r n d = 0 := if_pos h

/-- A reverse count moves back as often as the remainder is below 0, and no more often. -/
theorem reverseStep_bounds {r n d : Nat} (hd : 1 ≤ d) (hr : r < d) :
    n ≤ r + reverseStep r n d * d ∧ r + reverseStep r n d * d < n + d := by
  unfold reverseStep
  split
  case isTrue hle => omega
  case isFalse hlt =>
    have hdiv := Nat.div_add_mod' (n - r + d - 1) d
    have hmod := Nat.mod_lt (n - r + d - 1) hd
    omega

/-- The number of steps back is the one that leaves a remainder of 0 to below the denominator. -/
theorem reverseStep_unique {r n d k : Nat} (hd : 1 ≤ d) (hr : r < d) (hlow : n ≤ r + k * d)
    (hhigh : r + k * d < n + d) : reverseStep r n d = k := by
  obtain ⟨hl, hh⟩ := reverseStep_bounds (n := n) hd hr
  rcases Nat.lt_trichotomy (reverseStep r n d) k with hlt | heq | hgt
  · have := Nat.mul_le_mul_right d (Nat.succ_le_of_lt hlt)
    rw [Nat.succ_mul] at this
    omega
  · exact heq
  · have := Nat.mul_le_mul_right d (Nat.succ_le_of_lt hgt)
    rw [Nat.succ_mul] at this
    omega

theorem reverseStep_of_forward {r n d : Nat} (hd : 1 ≤ d) (hr : r < d) :
    reverseStep ((r + n) % d) n d = (r + n) / d := by
  have hsum := Nat.mod_add_div' (r + n) d
  refine reverseStep_unique hd (Nat.mod_lt _ hd) ?_ ?_ <;> omega

theorem State.noticeReverse_of_new {s : State}
    (h : s.cfg.reverseAllowance < s.lcu.reverseRun ∧ s.lcu.reverseSent = false) :
    s.noticeReverse = (s.notice .reverse none none (valueOf s.lcu.reverseRun)).withLcu
      { s.lcu with reverseSent := true } := by
  refine (if_pos (by simp [h])).trans ?_
  simp

theorem State.noticeReverse_of_not {s : State}
    (h : ¬ (s.cfg.reverseAllowance < s.lcu.reverseRun ∧ s.lcu.reverseSent = false)) : s.noticeReverse = s :=
  if_neg (by simpa using h)

theorem State.noticeReverse_eq (s : State) :
    s.noticeReverse = if s.cfg.reverseAllowance < s.lcu.reverseRun ∧ s.lcu.reverseSent = false then
      (s.notice .reverse none none (valueOf s.lcu.reverseRun)).withLcu { s.lcu with reverseSent := true }
    else s := by
  split
  case isTrue h => exact State.noticeReverse_of_new h
  case isFalse h => exact State.noticeReverse_of_not h

/-- A count that holds at its bound. -/
theorem holdAdd_eq_min {m x k : Nat} (h : x ≤ m) : holdAdd m x k = min m (x + k) := by
  unfold holdAdd; split <;> omega

/-- Settles O18: the steps back are those that bring the remainder to 0 or above. -/
theorem reverseCountScales : Obligations.ReverseCountScales := by
  refine ⟨?_, fun r n d hd hr => ⟨reverseStep_of_forward hd hr, ?_⟩⟩
  · intro line order s held new hheld hnew hturn hd hrem hrun
    subst hnew
    have hdecode := State.decodeEncoder_of_reverse (s := s.withPins (s.pins.toggle line)) order hheld.levels
      (turnOf_sensed_of_reverse hturn)
    obtain ⟨hlow, hhigh⟩ := reverseStep_bounds (n := s.cfg.ratioN) hd hrem
    refine ⟨reverseStep s.lcu.remainder s.cfg.ratioN s.cfg.ratioD,
      s.lcu.remainder + reverseStep s.lcu.remainder s.cfg.ratioN s.cfg.ratioD * s.cfg.ratioD - s.cfg.ratioN,
      by omega, by omega, ?_⟩
    intro run base
    have hbase : (s.withPins (s.pins.toggle line)).turned.reverseCount = base.noticeReverse := by
      have hmin : holdAdd 4294967295 s.lcu.reverseRun (reverseStep s.lcu.remainder s.cfg.ratioN s.cfg.ratioD) = run :=
        holdAdd_eq_min hrun
      simp only [base, ← hmin]
      rfl
    rw [exec_encoderCount hheld order, hdecode, hbase, State.noticeReverse_eq]
    rfl
  · rw [reverseStep_of_forward hd hr]
    have := Nat.mod_add_div' (r + n) d
    omega

end Sys2Proof.Machine
end

section
/-! The output channels: what a request does to a channel by its state, and which pulses a movement ends (R46 to
R52). -/

namespace Sys2Proof.Machine

variable {s : State} {ch : Fin 4}

/-! ### Putting a channel -/

theorem Aou.put_of_edge (a : Aou) (st : ChannelState) (m : Nat)
    (h : (a.channels.get ch).state.active ≠ st.active) :
    a.put ch st m = ⟨a.channels.set ch ⟨st, m⟩, a.edges.set ch (a.edges.get ch + 1)⟩ := by
  simp [Aou.put, h]

theorem Aou.put_of_level (a : Aou) (st : ChannelState) (m : Nat)
    (h : (a.channels.get ch).state.active = st.active) :
    a.put ch st m = ⟨a.channels.set ch ⟨st, m⟩, a.edges⟩ := by
  simp [Aou.put, h]

theorem State.reportEnd_of_wu (t : State) (h : t.unitOf ch = .wu) : t.reportEnd ch = t := by
  simp [State.reportEnd, h]

theorem State.reportEnd_of_ms (t : State) (h : t.unitOf ch = .ms) : t.reportEnd ch = t.pulseEnded ch := by
  simp [State.reportEnd, h]

theorem reached_iff {now p : BitVec 32} : reached now p = true ↔ now = p ∨ before p now = true := by
  simp [reached]

theorem State.pulseStop_of_wu (base : Coord) (width : Nat) (h : (s.cfg.outputs.get ch).unit = .wu) :
    s.pulseStop ch base width = base + BitVec.ofNat 32 width := by
  simp [State.pulseStop, State.unitOf, h]

/-! ### Pulse requests -/

theorem State.pulseRequest_of_idle (base : Coord) (width : Nat) (mark : Option MarkRef)
    (h : (s.channel ch).state = .idle) : s.pulseRequest ch base width mark =
      if s.unitOf ch = .wu ∧ reached s.lcu.coord (s.pulseStop ch base width) = true then
        s.noticeMark .outputSkipped mark (packTop ch.val (s.pulseStop ch base width))
      else s.setChannel ch (.pulsing (s.pulseStop ch base width)) 0 := by
  simp [State.pulseRequest, h]

theorem State.pulseRequest_of_pulsing (base : Coord) (width : Nat) (mark : Option MarkRef) {held : BitVec 32}
    (h : (s.channel ch).state = .pulsing held) : s.pulseRequest ch base width mark =
      (s.setChannel ch (.pulsing (later held (s.pulseStop ch base width)))
        (holdInc 255 (s.channel ch).merges)).noticeMark
        .outputMerged mark (packTop ch.val (BitVec.ofNat 32 (holdInc 255 (s.channel ch).merges))) := by
  simp [State.pulseRequest, h]

theorem State.pulseRequest_of_latched (base : Coord) (width : Nat) (mark : Option MarkRef)
    (h : (s.channel ch).state = .latched) : s.pulseRequest ch base width mark =
      ((s.setChannel ch .latched (holdInc 255 (s.channel ch).merges)).noticeMark .outputMerged mark
        (packTop ch.val (BitVec.ofNat 32 (holdInc 255 (s.channel ch).merges)))).reportEnd ch := by
  simp [State.pulseRequest, h]

/-! ### A movement -/

theorem State.wuEndReached_iff {a b : Coord} : s.wuEndReached ch a b = true ↔
    (s.cfg.outputs.get ch).unit = .wu ∧
      ∃ stop, (s.aou.channels.get ch).state = .pulsing stop ∧ reaches a b stop = true := by
  unfold State.wuEndReached State.unitOf State.channel
  cases (s.cfg.outputs.get ch).unit <;> cases (s.aou.channels.get ch).state <;> simp

/-- What a movement does at one channel (R52). -/
def State.endPulse (a b : Coord) (t : State) (ch : Fin 4) : State :=
  if t.wuEndReached ch a b then t.idleChannel ch else t

theorem State.endPulse_eq (a b : Coord) (t : State) (ch : Fin 4) :
    t.endPulse a b ch = t.withAou (t.endPulse a b ch).aou := by
  unfold State.endPulse
  split <;> rfl

theorem State.get_endPulse (a b : Coord) (t : State) (ch i : Fin 4) :
    (t.endPulse a b ch).aou.channels.get i =
      (if i = ch ∧ t.wuEndReached ch a b = true then ⟨.idle, 0⟩ else t.aou.channels.get i) ∧
    (t.endPulse a b ch).aou.edges.get i =
      (if i = ch ∧ t.wuEndReached ch a b = true then t.aou.edges.get i + 1 else t.aou.edges.get i) := by
  unfold State.endPulse
  cases hreach : t.wuEndReached ch a b with
  | false => simp
  | true =>
    obtain ⟨-, stop, hstop, -⟩ := State.wuEndReached_iff.mp hreach
    have hedge : (t.aou.channels.get ch).state.active ≠ ChannelState.idle.active := by
      simp [hstop]
    by_cases hi : i = ch <;> simp [State.idleChannel, State.setChannel, Aou.put_of_edge _ _ _ hedge, Four.get_set, hi]

/-- A channel ends its pulse in a movement by what stands at the channel itself. -/
theorem State.wuEndReached_congr {s t : State} {i : Fin 4} (a b : Coord) (hcfg : t.cfg = s.cfg)
    (h : t.aou.channels.get i = s.aou.channels.get i) : t.wuEndReached i a b = s.wuEndReached i a b := by
  simp [State.wuEndReached, State.unitOf, State.channel, hcfg, h]

/-- The channels are taken one after the other, each once: every one ends its pulse by what it was at the start. -/
theorem State.foldl_endPulse (a b : Coord) (l : List (Fin 4)) (hl : l.Nodup) (s : State) :
    l.foldl (State.endPulse a b) s = s.withAou (l.foldl (State.endPulse a b) s).aou ∧ ∀ i,
      (l.foldl (State.endPulse a b) s).aou.channels.get i =
        (if i ∈ l ∧ s.wuEndReached i a b = true then ⟨.idle, 0⟩ else s.aou.channels.get i) ∧
      (l.foldl (State.endPulse a b) s).aou.edges.get i =
        (if i ∈ l ∧ s.wuEndReached i a b = true then s.aou.edges.get i + 1 else s.aou.edges.get i) := by
  induction l generalizing s with
  | nil => exact ⟨rfl, fun i => by simp⟩
  | cons c l ih =>
    obtain ⟨hc, hl⟩ := List.nodup_cons.mp hl
    obtain ⟨heq, hget⟩ := ih hl (s.endPulse a b c)
    have hstep := State.endPulse_eq a b s c
    have hcfg : (s.endPulse a b c).cfg = s.cfg := by rw [hstep]; rfl
    have hwhole : (c :: l).foldl (State.endPulse a b) s =
        s.withAou ((c :: l).foldl (State.endPulse a b) s).aou :=
      heq.trans (congrArg (fun t => t.withAou (l.foldl (State.endPulse a b) (s.endPulse a b c)).aou) hstep :)
    refine ⟨hwhole, fun i => ?_⟩
    obtain ⟨hch, hed⟩ := hget i
    obtain ⟨hci, hei⟩ := State.get_endPulse a b s c i
    rw [List.foldl_cons, hch, hed]
    by_cases hi : i = c
    · subst hi
      simp [hc, hci, hei]
    · have hsame : (s.endPulse a b c).aou.channels.get i = s.aou.channels.get i := by simp [hci, hi]
      have hreach := State.wuEndReached_congr a b hcfg hsame
      simp [hi, hreach, hci, hei]

/-- A movement ends the pulses of the WU channels whose ends it reaches, and does nothing else (R52). -/
theorem State.aouMove_spec (s : State) (a b : Coord) : s.aouMove a b = s.withAou (s.aouMove a b).aou ∧ ∀ i,
    (s.aouMove a b).aou.channels.get i =
      (if s.wuEndReached i a b = true then ⟨.idle, 0⟩ else s.aou.channels.get i) ∧
    (s.aouMove a b).aou.edges.get i =
      (if s.wuEndReached i a b = true then s.aou.edges.get i + 1 else s.aou.edges.get i) := by
  obtain ⟨heq, hget⟩ := State.foldl_endPulse a b fourIndices (by decide) s
  refine ⟨heq, fun i => ?_⟩
  have hmem : i ∈ fourIndices := by revert i; decide
  have h := hget i
  simp only [hmem, true_and] at h
  exact h

/-! ### SET, CLEAR and TOGGLE -/

theorem State.reportEnd_setChannel (st : ChannelState) (m : Nat) : (s.setChannel ch st m).reportEnd ch =
    (match (s.cfg.outputs.get ch).unit with
    | .wu => s.setChannel ch st m
    | .ms => (s.setChannel ch st m).pulseEnded ch) := by
  cases h : (s.cfg.outputs.get ch).unit
  · exact State.reportEnd_of_wu _ h
  · exact State.reportEnd_of_ms _ h

theorem State.setChannel_of_edge (st : ChannelState) (m : Nat) (h : (s.aou.channels.get ch).state.active ≠ st.active) :
    s.setChannel ch st m = s.withAou ⟨s.aou.channels.set ch ⟨st, m⟩, s.aou.edges.set ch (s.aou.edges.get ch + 1)⟩ :=
  congrArg s.withAou (Aou.put_of_edge _ _ _ h)

theorem State.setChannel_of_level (st : ChannelState) (m : Nat) (h : (s.aou.channels.get ch).state.active = st.active) :
    s.setChannel ch st m = s.withAou ⟨s.aou.channels.set ch ⟨st, m⟩, s.aou.edges⟩ :=
  congrArg s.withAou (Aou.put_of_level _ _ _ h)

/-- A SET, CLEAR or TOGGLE as the obligation writes it: put the channel, and on an MS channel report the end. -/
theorem State.levels_spec (s : State) (ch : Fin 4) {c : Channel} (h : s.aou.channels.get ch = c) :
    (s.setLevel ch = match c.state with
      | .idle => s.setChannel ch .latched c.merges
      | .pulsing _ => (s.setChannel ch .latched c.merges).reportEnd ch
      | .latched => s) ∧
    (s.clearLevel ch = match c.state with
      | .idle => s
      | .pulsing _ => (s.setChannel ch .idle 0).reportEnd ch
      | .latched => s.setChannel ch .idle 0) ∧
    (s.toggleLevel ch = match c.state with
      | .idle => s.setChannel ch .latched c.merges
      | .pulsing _ => (s.setChannel ch .idle 0).reportEnd ch
      | .latched => s.setChannel ch .idle 0) := by
  subst h
  exact ⟨rfl, rfl, rfl⟩

/-! ### The obligation -/

/-- A pulse that a movement has ended starts again: the pin makes both edges (R46, R55). -/
theorem pulse_after_aouMove (s : State) (a b base : Coord) (ch : Fin 4) (width : Nat) (mark : Option MarkRef)
    (hwu : (s.cfg.outputs.get ch).unit = .wu) (hend : s.wuEndReached ch a b = true)
    (hnot : reached s.lcu.coord (base + BitVec.ofNat 32 width) = false) :
    ((s.aouMove a b).pulseRequest ch base width mark).aou.channels.get ch =
      ⟨.pulsing (base + BitVec.ofNat 32 width), 0⟩ ∧
    ((s.aouMove a b).pulseRequest ch base width mark).aou.edges.get ch = s.aou.edges.get ch + 2 := by
  obtain ⟨heq, hget⟩ := State.aouMove_spec s a b
  obtain ⟨hchannel, hedges⟩ := hget ch
  simp only [hend, if_true] at hchannel hedges
  generalize (s.aouMove a b).aou = x at heq hchannel hedges
  have hidle : ((s.withAou x).channel ch).state = .idle := congrArg Channel.state hchannel
  have hstop := State.pulseStop_of_wu (s := s.withAou x) base width hwu
  rw [heq, State.pulseRequest_of_idle _ _ _ hidle, hstop, if_neg (by simp [hnot])]
  simp [State.setChannel, Aou.edges_put, hchannel, hedges]

/-- A pulse that merges before a movement ends, or not, with the later of the two ends. -/
theorem aouMove_after_pulse (s : State) (a b base : Coord) (ch : Fin 4) (width m : Nat) (mark : Option MarkRef)
    (stop : BitVec 32) (hwu : (s.cfg.outputs.get ch).unit = .wu) (hch : s.aou.channels.get ch = ⟨.pulsing stop, m⟩) :
    ((s.pulseRequest ch base width mark).aouMove a b).aou.edges.get ch = s.aou.edges.get ch +
      (if reaches a b (later stop (base + BitVec.ofNat 32 width)) then 1 else 0) := by
  have hstop := State.pulseStop_of_wu base width hwu
  have hpulse := State.pulseRequest_of_pulsing (s := s) base width mark (congrArg Channel.state hch)
  rw [hstop] at hpulse
  have hafter := State.setChannel_of_level (s := s) (ch := ch) (.pulsing (later stop (base + BitVec.ofNat 32 width)))
    (holdInc 255 (s.channel ch).merges) (by simp [hch])
  have hunit : ((s.pulseRequest ch base width mark).cfg.outputs.get ch).unit = .wu := by
    rw [hpulse]; exact hwu
  have haou : (s.pulseRequest ch base width mark).aou = ⟨s.aou.channels.set ch
      ⟨.pulsing (later stop (base + BitVec.ofNat 32 width)), holdInc 255 (s.channel ch).merges⟩, s.aou.edges⟩ := by
    rw [hpulse, hafter, State.aou_noticeMark, State.aou_withAou]
  have hend : (s.pulseRequest ch base width mark).wuEndReached ch a b = true ↔
      reaches a b (later stop (base + BitVec.ofNat 32 width)) = true := by
    rw [State.wuEndReached_iff]
    simp [hunit, haou, Four.get_set]
  rw [((State.aouMove_spec _ a b).2 ch).2, haou]
  simp only [hend]
  split <;> rfl

/-- Settles O25: the requests by the state of the channel, and a movement channel by channel. -/
theorem channelRequests : Obligations.ChannelRequests := by
  refine ⟨?_, ?_, ?_, ?_, ?_⟩
  · intro s ch base width m mark hch stop
    have hstop : s.pulseStop ch base width = stop := rfl
    have hedge : (s.aou.channels.get ch).state.active ≠ (ChannelState.pulsing stop).active := by simp [hch]
    rw [State.pulseRequest_of_idle base width mark (congrArg Channel.state hch), hstop,
      State.setChannel_of_edge _ _ hedge]
    exact if_congr (and_congr Iff.rfl reached_iff) rfl rfl
  · intro s ch base width m mark stop merged value
    refine ⟨fun stop' hch => ?_, fun hch => ?_⟩
    · have hlevel : (s.aou.channels.get ch).state.active = (ChannelState.pulsing (later stop' stop)).active := by
        simp [hch]
      have hmerges : (s.channel ch).merges = m := congrArg Channel.merges hch
      rw [State.pulseRequest_of_pulsing base width mark (congrArg Channel.state hch), hmerges]
      exact congrArg (fun t => t.noticeMark .outputMerged mark value) (State.setChannel_of_level _ _ hlevel)
    · have hlevel : (s.aou.channels.get ch).state.active = ChannelState.latched.active := by simp [hch]
      have hmerges : (s.channel ch).merges = m := congrArg Channel.merges hch
      intro absorbed
      rw [State.pulseRequest_of_latched base width mark (congrArg Channel.state hch), hmerges,
        State.setChannel_of_level _ _ hlevel]
      cases hu : (s.cfg.outputs.get ch).unit
      · exact State.reportEnd_of_wu absorbed hu
      · exact State.reportEnd_of_ms absorbed hu
  · intro s ch c hch stay edge put ended
    have hput : ∀ st m, c.state.active ≠ st.active → s.setChannel ch st m = put st m edge := fun st m h =>
      State.setChannel_of_edge st m (by rwa [hch])
    have hstay : ∀ st m, c.state.active = st.active → s.setChannel ch st m = put st m stay := fun st m h =>
      State.setChannel_of_level st m (by rwa [hch])
    have hended : ∀ st m, (s.setChannel ch st m).reportEnd ch = ended (s.setChannel ch st m) := fun st m =>
      State.reportEnd_setChannel st m
    obtain ⟨hset, hclear, htoggle⟩ := State.levels_spec s ch hch
    rw [hset, hclear, htoggle]
    obtain ⟨st, merges⟩ := c
    cases st with
    | idle => exact ⟨hput _ _ (by simp), rfl, hput _ _ (by simp)⟩
    | pulsing stop =>
      have hend : (s.setChannel ch .idle 0).reportEnd ch = ended (put .idle 0 edge) :=
        (hended _ _).trans (congrArg ended (hput _ _ (by simp)))
      exact ⟨(hended _ _).trans (congrArg ended (hstay _ _ (by simp))), hend, hend⟩
    | latched => exact ⟨rfl, hput _ _ (by simp), hput _ _ (by simp)⟩
  · intro s a b
    obtain ⟨heq, hget⟩ := State.aouMove_spec s a b
    refine ⟨heq, fun ch => ⟨fun h => ?_, fun h => ?_⟩⟩
    · simpa [State.wuEndReached_iff.mpr h] using hget ch
    · simpa [mt State.wuEndReached_iff.mp h] using hget ch
  · intro s a b base ch width m mark stop hwu hch hreach hnot after first merged
    have hend : s.wuEndReached ch a b = true := State.wuEndReached_iff.mpr ⟨hwu, stop, by rw [hch], hreach⟩
    obtain ⟨hchannel, hedges⟩ := pulse_after_aouMove s a b base ch width mark hwu hend hnot
    exact ⟨hchannel, hedges, aouMove_after_pulse s a b base ch width m mark stop hwu hch⟩

end Sys2Proof.Machine
end

section
/-! The mark queue: how a record is inserted, what the late actions of a record do to the queue, and when a record
is examined out of it (R18, R19, R35, R36). -/

namespace Sys2Proof.Machine

/-! ### Insertion -/

/-- Where a record is inserted: directly after the last record whose position is not after its own (R19). -/
theorem insertRecord_split (r : MarkRecord) (q : List MarkRecord) : ∃ xs ys, q = xs ++ ys ∧
    insertRecord r q = xs ++ r :: ys ∧ (∀ y ∈ ys, before r.position y.position = true) ∧
    (xs = [] ∨ ∃ zs x, xs = zs ++ [x] ∧ before r.position x.position = false) := by
  induction q with
  | nil => exact ⟨[], [], rfl, rfl, by simp, .inl rfl⟩
  | cons y q ih =>
    obtain ⟨xs, ys, hq, hinsert, hafter, hlast⟩ := ih
    by_cases hany : (y :: q).any (fun p => !before r.position p.position) = true
    · refine ⟨y :: xs, ys, by simp [hq], by simp [insertRecord, hany, hinsert], hafter, .inr ?_⟩
      obtain rfl | ⟨zs, x, rfl, hx⟩ := hlast
      · have hq' : q.any (fun p => !before r.position p.position) = false := by
          rw [hq]
          simpa using hafter
        rw [List.any_cons, hq', Bool.or_false, Bool.not_eq_true'] at hany
        exact ⟨[], y, rfl, hany⟩
      · exact ⟨y :: zs, x, rfl, hx⟩
    · exact ⟨[], y :: q, rfl, by simp [insertRecord, hany], by simpa using hany, .inl rfl⟩

/-! ### Action states -/

/-- The Mark Engine with the state of one action set. -/
def Mke.acted (m : Mke) (uid idx : Nat) (st : ActionState) : Mke :=
  { m with queue := m.queue.map (fun r =>
      if r.uid = uid then { r with actions := modifyAt (fun a => { a with state := st }) idx r.actions } else r) }

@[simp] theorem State.mke_setAction (s : State) (uid idx : Nat) (st : ActionState) :
    (s.setAction uid idx st).mke = s.mke.acted uid idx st := rfl

@[simp] theorem State.mke_recordEntry (s : State) (x : RecordHandoff) : (s.recordEntry x).mke = s.mke := by
  unfold State.recordEntry
  split
  · rfl
  · split
    · split <;> simp
    · simp

theorem State.mke_fireHold (s : State) (r : MarkRecord) (idx : Nat) :
    ∃ st, (st = .done ∨ st = .missed) ∧ (s.fireHold r idx).mke = s.mke.acted r.uid idx st := by
  unfold State.fireHold
  split
  · exact ⟨.done, .inl rfl, by simp⟩
  · exact ⟨.missed, .inr rfl, by simp⟩

@[simp] theorem State.mke_fireRecord (s : State) (r : MarkRecord) (idx : Nat) (late : Bool) :
    (s.fireRecord r idx late).mke = s.mke.acted r.uid idx .done := by
  unfold State.fireRecord
  simp only [State.mke_setAction]
  split <;> simp

/-- A late action whose position is reached is DONE or MISSED, and any other stands (R35). -/
theorem State.mke_lateAction (s : State) (r : MarkRecord) (ia : Nat × Action) :
    (reached s.lcu.coord ia.2.triggerPos = false → (s.lateAction r ia) = s) ∧
    (reached s.lcu.coord ia.2.triggerPos = true →
      ∃ st, (st = .done ∨ st = .missed) ∧ (s.lateAction r ia).mke = s.mke.acted r.uid ia.1 st) := by
  refine ⟨fun h => by simp [State.lateAction, h], fun h => ?_⟩
  unfold State.lateAction
  rw [if_pos h]
  split
  · exact s.mke_fireHold r ia.1
  · exact ⟨.done, .inl rfl, by simp⟩
  all_goals exact ⟨.missed, .inr rfl, rfl⟩

@[simp] theorem State.lcu_lateAction (s : State) (r : MarkRecord) (ia : Nat × Action) :
    (s.lateAction r ia).lcu = s.lcu :=
  (State.lateAction_kept (webFrame_kept s).toKeptByMarks (WebFrame.refl s) r ia).lcu

theorem modifyAt_append {α : Type} (f : α → α) (xs : List α) (y : α) (ys : List α) :
    modifyAt f xs.length (xs ++ y :: ys) = xs ++ f y :: ys := by
  induction xs with
  | nil => rfl
  | cons x xs ih => simp [modifyAt, ih]

/-- What an action of a record that enters late becomes (R35). -/
def LateFrom (coord : Coord) (a b : Action) : Prop :=
  if reached coord a.triggerPos = true then b.state = .done ∨ b.state = .missed else b = a

/-- A record of the queue whose name no other record there has. -/
structure StandsAlone (m : Mke) (r : MarkRecord) (xs ys : List MarkRecord) : Prop where
  queue : m.queue = xs ++ r :: ys
  others : ∀ q ∈ xs ++ ys, q.uid ≠ r.uid

theorem StandsAlone.acted {m : Mke} {r : MarkRecord} {xs ys : List MarkRecord} (h : StandsAlone m r xs ys)
    (idx : Nat) (st : ActionState) : m.acted r.uid idx st = { m with queue :=
      xs ++ { r with actions := modifyAt (fun a => { a with state := st }) idx r.actions } :: ys } := by
  have hsame : ∀ q ∈ xs ++ ys, (if q.uid = r.uid then
      { q with actions := modifyAt (fun a => { a with state := st }) idx q.actions } else q) = q := fun q hq =>
    if_neg (h.others q hq)
  have hxs := List.map_congr_left fun q hq => hsame q (List.mem_append_left ys hq)
  have hys := List.map_congr_left fun q hq => hsame q (List.mem_append_right xs hq)
  simp only [List.map_id'] at hxs hys
  simp [Mke.acted, h.queue, hxs, hys]

/-- The late actions of a record, one after the other, change nothing of the Mark Engine but that record (R35). -/
theorem State.mke_foldl_lateAction (r q : MarkRecord) (xs ys : List MarkRecord) (hname : q.uid = r.uid)
    (pre post front : List Action) (s : State)
    (hs : StandsAlone s.mke { q with actions := front ++ post } xs ys)
    (hfront : List.Forall₂ (LateFrom s.lcu.coord) pre front) :
    ∃ acts, List.Forall₂ (LateFrom s.lcu.coord) (pre ++ post) acts ∧
      ((numbered pre.length post).foldl (fun t ia => t.lateAction r ia) s).mke =
        { s.mke with queue := xs ++ { q with actions := acts } :: ys } := by
  induction post generalizing pre front s with
  | nil =>
    refine ⟨front, by simpa using hfront, ?_⟩
    have hqueue := hs.queue
    rw [List.append_nil] at hqueue
    simp only [numbered, List.foldl_nil, ← hqueue]
  | cons a post ih =>
    obtain ⟨hstay, hfire⟩ := s.mke_lateAction r (pre.length, a)
    have hlength := hfront.length_eq
    rw [numbered, List.foldl_cons]
    have hmke : ∃ b, LateFrom s.lcu.coord a b ∧ (s.lateAction r (pre.length, a)).mke =
        { s.mke with queue := xs ++ { q with actions := (front ++ [b]) ++ post } :: ys } := by
      cases hreach : reached s.lcu.coord a.triggerPos with
      | false =>
        refine ⟨a, by simp [LateFrom, hreach], ?_⟩
        have hqueue := hs.queue
        rw [hstay hreach, List.append_assoc, List.singleton_append, ← hqueue]
      | true =>
        obtain ⟨st, hst, hmke⟩ := hfire hreach
        refine ⟨{ a with state := st }, by simpa [LateFrom, hreach] using hst, ?_⟩
        have hacted := hs.acted pre.length st
        rw [hlength, modifyAt_append, ← hlength] at hacted
        rw [hmke, ← hname]
        simpa using hacted
    obtain ⟨b, hb, hmke⟩ := hmke
    have hcoord : (s.lateAction r (pre.length, a)).lcu.coord = s.lcu.coord := by rw [State.lcu_lateAction]
    have hnext : StandsAlone (s.lateAction r (pre.length, a)).mke
        { q with actions := (front ++ [b]) ++ post } xs ys := ⟨by rw [hmke], hs.others⟩
    have hpre : List.Forall₂ (LateFrom (s.lateAction r (pre.length, a)).lcu.coord) (pre ++ [a]) (front ++ [b]) := by
      rw [hcoord]
      exact List.rel_append hfront (.cons hb .nil)
    obtain ⟨acts, hacts, hfold⟩ := ih (pre ++ [a]) (front ++ [b]) _ hnext hpre
    rw [hcoord, List.append_assoc, List.singleton_append] at hacts
    rw [List.length_append, List.length_singleton] at hfold
    exact ⟨acts, hacts, by rw [hfold, hmke]⟩

/-! ### Examination -/

/-- Records with an action PENDING or ARMED stay (R36). -/
theorem State.examineRecord_of_open {s : State} {uid : Nat}
    (h : ∀ r ∈ s.mke.queue, r.uid = uid → ∃ a ∈ r.actions, a.state = .pending ∨ a.state = .armed) :
    s.examineRecord uid = s := by
  refine if_neg ?_
  simp only [List.any_eq_true, Bool.and_eq_true, beq_iff_eq, not_exists, not_and]
  intro r hr hname hfinished
  obtain ⟨a, ha, hst⟩ := h r hr hname
  have := List.all_eq_true.mp hfinished a ha
  obtain hst | hst := hst <;> simp [hst] at this

/-- A record with every action DONE or MISSED leaves (R36). -/
theorem State.examineRecord_of_finished {s : State} {uid : Nat}
    (h : ∃ r ∈ s.mke.queue, r.uid = uid ∧ ∀ a ∈ r.actions, a.state = .done ∨ a.state = .missed) :
    s.examineRecord uid = s.withMke { s.mke with
      queue := s.mke.queue.filter (fun r => r.uid != uid), retired := s.mke.retired + 1 } := by
  obtain ⟨r, hr, hname, hdone⟩ := h
  refine if_pos (List.any_eq_true.mpr ⟨r, hr, ?_⟩)
  have hfinished : r.finished = true :=
    List.all_eq_true.mpr fun a ha => by obtain hst | hst := hdone a ha <;> simp [hst]
  simp [hname, hfinished]

end Sys2Proof.Machine
end

section
/-! Marks offered to the queue: taken, late, repeated, clashing, spilled; and the spill record that retirements let
in (R18 to R20, R30, R31, R35). -/

namespace Sys2Proof.Machine

variable {s : State} {o : MarkOffer}

/-! ### Late entry -/

theorem forall₂_exists_of_mem {α : Type} {R : α → α → Prop} {xs ys : List α} (h : List.Forall₂ R xs ys) :
    (∀ x ∈ xs, ∃ y ∈ ys, R x y) ∧ ∀ y ∈ ys, ∃ x ∈ xs, R x y := by
  induction h with
  | nil => simp
  | cons hxy _ ih =>
    obtain ⟨hleft, hright⟩ := ih
    refine ⟨fun x hx => ?_, fun y hy => ?_⟩
    · obtain rfl | hx := List.mem_cons.mp hx
      · exact ⟨_, List.mem_cons_self .., hxy⟩
      · obtain ⟨y, hy, hr⟩ := hleft x hx
        exact ⟨y, List.mem_cons_of_mem _ hy, hr⟩
    · obtain rfl | hy := List.mem_cons.mp hy
      · exact ⟨_, List.mem_cons_self .., hxy⟩
      · obtain ⟨x, hx, hr⟩ := hright y hy
        exact ⟨x, List.mem_cons_of_mem _ hx, hr⟩

/-- A record placed in the queue (R19). -/
def State.placed (s : State) (r : MarkRecord) (late : Bool) : State :=
  s.withMke { s.mke with
    queue := insertRecord { r with late := late } s.mke.queue, nextUid := s.mke.nextUid + 1 }

/-- A record placed late, its late actions taken and noticed, before it is examined (R35). -/
def State.placedLate (s : State) (r : MarkRecord) : State :=
  ((numbered 0 r.actions).foldl (fun t ia => t.lateAction r ia) (s.placed r true)).noticeMark .markLate r.ref
    (valueOf (s.reachedActions r))

theorem State.enterRecord_ahead {r : MarkRecord} (h : s.reachedActions r = 0) :
    s.enterRecord r = s.placed r false := by
  simp [State.enterRecord, State.placed, h]

theorem State.enterRecord_late {r : MarkRecord} (h : 1 ≤ s.reachedActions r) :
    s.enterRecord r = (s.placedLate r).examineRecord r.uid := by
  have hpos : 0 < s.reachedActions r := h
  have hne : s.reachedActions r ≠ 0 := Nat.ne_of_gt hpos
  simp [State.enterRecord, State.placedLate, State.placed, hpos, hne]

/-- The queue with a record placed late: the record stands at its place, its reached actions DONE or MISSED (R35). -/
theorem State.mke_placedLate {r : MarkRecord} (hname : ∀ q ∈ s.mke.queue, q.uid ≠ r.uid) : ∃ xs ys acts,
    s.mke.queue = xs ++ ys ∧ List.Forall₂ (LateFrom s.lcu.coord) r.actions acts ∧
    (s.placedLate r).mke = { s.mke with
      queue := xs ++ { r with late := true, actions := acts } :: ys, nextUid := s.mke.nextUid + 1 } := by
  obtain ⟨xs, ys, hq, hinsert, -, -⟩ := insertRecord_split { r with late := true } s.mke.queue
  have halone : StandsAlone (s.placed r true).mke { r with late := true } xs ys :=
    ⟨hinsert, fun q hm => hname q (hq ▸ hm)⟩
  obtain ⟨acts, hacts, hmke⟩ := State.mke_foldl_lateAction r { r with late := true } xs ys rfl [] r.actions [] _
    halone .nil
  exact ⟨xs, ys, acts, hq, hacts, hmke⟩

theorem length_filter_lt_iff {α : Type} (p : α → Bool) (xs : List α) :
    (xs.filter p).length < xs.length ↔ ∃ x ∈ xs, p x = false := by
  have hle := List.length_filter_le p xs
  have heq := List.length_filter_eq_length_iff (p := p) (l := xs)
  constructor
  · intro h
    by_contra hno
    push Not at hno
    exact absurd (heq.mpr fun x hx => by simpa using hno x hx) (Nat.ne_of_lt h)
  · rintro ⟨x, hx, hp⟩
    refine Nat.lt_of_le_of_ne hle fun h => ?_
    simpa [hp] using heq.mp h x hx

/-- A record some of whose actions are ahead stays, and one whose actions are all reached retires at once (R35,
R36). -/
theorem State.enterRecord_late_spec {r : MarkRecord} (hname : ∀ q ∈ s.mke.queue, q.uid ≠ r.uid)
    (hpending : ∀ a ∈ r.actions, a.state = .pending) (h : 1 ≤ s.reachedActions r) :
    (s.reachedActions r < r.actions.length → s.enterRecord r = s.placedLate r) ∧
    (s.reachedActions r = r.actions.length → s.enterRecord r = (s.placedLate r).withMke { s.mke with
      nextUid := s.mke.nextUid + 1, retired := s.mke.retired + 1 }) := by
  obtain ⟨xs, ys, acts, hq, hacts, hmke⟩ := State.mke_placedLate hname
  obtain ⟨hleft, hright⟩ := forall₂_exists_of_mem hacts
  have hothers : ∀ q ∈ xs ++ ys, q.uid ≠ r.uid := fun q hm => hname q (hq ▸ hm)
  rw [State.enterRecord_late h]
  refine ⟨fun hlt => ?_, fun heq => ?_⟩
  · obtain ⟨a, ha, hahead⟩ := (length_filter_lt_iff ..).mp hlt
    obtain ⟨b, hb, hfrom⟩ := hleft a ha
    have hb' : b = a := by simpa [LateFrom, hahead] using hfrom
    refine State.examineRecord_of_open fun q hm hu => ⟨b, ?_, .inl (hb' ▸ hpending a ha)⟩
    have hm' : q ∈ xs ++ { r with late := true, actions := acts } :: ys := by simpa [hmke] using hm
    obtain hm' | rfl | hm' : q ∈ xs ∨ q = _ ∨ q ∈ ys := by simpa using hm'
    · exact absurd hu (hothers q (List.mem_append_left _ hm'))
    · exact hb
    · exact absurd hu (hothers q (List.mem_append_right _ hm'))
  · have hall := List.length_filter_eq_length_iff.mp heq
    have hfinished : ∃ q ∈ (s.placedLate r).mke.queue, q.uid = r.uid ∧
        ∀ a ∈ q.actions, a.state = .done ∨ a.state = .missed := by
      refine ⟨{ r with late := true, actions := acts }, by simp [hmke], rfl, fun b hb => ?_⟩
      obtain ⟨a, ha, hfrom⟩ := hright b hb
      simpa [LateFrom, hall a ha] using hfrom
    have hkeep : ∀ zs : List MarkRecord, (∀ q ∈ zs, q.uid ≠ r.uid) → zs.filter (fun q => q.uid != r.uid) = zs :=
      fun zs hz => List.filter_eq_self.mpr fun q hm => by simpa using hz q hm
    have hfilter : (xs ++ { r with late := true, actions := acts } :: ys).filter (fun q => q.uid != r.uid) =
        s.mke.queue := by
      rw [List.filter_append, List.filter_cons_of_neg (by simp), hq,
        hkeep xs fun q hm => hothers q (List.mem_append_left _ hm),
        hkeep ys fun q hm => hothers q (List.mem_append_right _ hm)]
    rw [State.examineRecord_of_finished hfinished, hmke]
    simp only [hfilter]

/-! ### The offer, by what stands in the queue -/

theorem State.settleSpill_of_settled (h : s.Settled) : s.settleSpill = s := by
  have h' : s.mke.retired = 0 := h
  unfold State.settleSpill
  split
  · exact if_pos h'
  · exact if_pos h'

@[simp] theorem State.settleSpill_settleSpill (s : State) : s.settleSpill.settleSpill = s.settleSpill :=
  State.settleSpill_of_settled s.settleSpill_settled

theorem State.offerMark_of_empty (h : tableEntries s.cfg o.kind = []) : s.offerMark o = (s, .notQueued) := by
  simp [State.offerMark, h]

theorem State.offerMark_of_full (h : tableEntries s.cfg o.kind ≠ []) (hfull : 64 ≤ s.mke.queue.length) :
    s.offerMark o = ((s.foldSpill o.ref o.position o.extent).settleSpill, .spilled) := by
  simp [State.offerMark, State.offerPlain, State.admitMark, h, hfull]

theorem State.offerMark_of_new (h : tableEntries s.cfg o.kind ≠ []) (hroom : s.mke.queue.length < 64)
    (hnew : s.sameIdentity o = none) :
    s.offerMark o = ((s.enterRecord (s.makeRecord o)).settleSpill, .queued) := by
  simp [State.offerMark, State.offerPlain, State.admitMark, h, Nat.not_le.mpr hroom, hnew]

theorem State.sameIdentity_of_blind (position : Coord) (extent : Nat) (spill : Bool) :
    s.sameIdentity (s.blindOffer position extent spill) = none := by
  simp [State.sameIdentity, State.blindOffer]

/-- A BLIND mark needs no identity check. -/
theorem State.offerMark_blind (h : s.Settled) (hroom : s.mke.queue.length < 64) (position : Coord) (extent : Nat)
    (spill : Bool) : (s.offerMark (s.blindOffer position extent spill)).1 =
      (s.offerPlain (s.blindOffer position extent spill)).1 := by
  by_cases he : tableEntries s.cfg (s.blindOffer position extent spill).kind = []
  · rw [State.offerMark_of_empty he]
    simp [State.offerPlain, State.admitMark, he, State.settleSpill_of_settled h]
  · rw [State.offerMark_of_new he hroom (State.sameIdentity_of_blind ..)]
    simp [State.offerPlain, State.admitMark, he, Nat.not_le.mpr hroom]

/-- Two marks are of one kind, position, lanes and extent. -/
def MarkOffer.repeats (o : MarkOffer) (held : MarkRecord) : Prop :=
  held.kind = o.kind ∧ held.position = o.position ∧ held.lanes = o.lanes ∧ held.extent = o.extent

theorem State.offerMark_of_repeated {held : MarkRecord} (h : tableEntries s.cfg o.kind ≠ [])
    (hroom : s.mke.queue.length < 64) (hheld : s.sameIdentity o = some held) (hr : o.repeats held) :
    s.offerMark o = (s.noticeMark .markDuplicate o.ref, .repeated) := by
  obtain ⟨hkind, hposition, hlanes, hextent⟩ := hr
  simp [State.offerMark, h, hroom, hheld, hkind, hposition, hlanes, hextent]

theorem State.offerMark_of_clash {held : MarkRecord} (h : tableEntries s.cfg o.kind ≠ [])
    (hroom : s.mke.queue.length < 64) (hheld : s.sameIdentity o = some held) (hr : ¬ o.repeats held) :
    s.offerMark o =
      (((s.noticeMark .markClash o.ref).offerPlain (s.blindOffer o.position o.extent false)).1, .clash) := by
  have hno : (held.kind == o.kind && held.position == o.position && held.lanes == o.lanes &&
      held.extent == o.extent) = false := by
    rw [Bool.eq_false_iff]
    simpa [MarkOffer.repeats, and_assoc] using hr
  simp [State.offerMark, h, hroom, hheld, hno]

/-- The held record of an identity is the one there is (R20). -/
theorem State.sameIdentity_of_mem (ok : MkeOk s.mke) {held : MarkRecord} (hm : held ∈ s.mke.queue)
    (hv : validStation o.origin = true) (hn : o.number.isSome = true) (ho : held.origin = o.origin)
    (hnum : held.number = o.number) : s.sameIdentity o = some held := by
  have hsame : ∀ q ∈ s.mke.queue, q.origin = o.origin → q.number = o.number → q = held := by
    intro q hq hqo hqn
    by_contra hne
    have hsymm : Std.Symm Apart := ⟨fun _ _ h => h.swap⟩
    have hapart : Apart q held := ok.distinct.forall hq hm hne
    exact hapart.1 ⟨hqo ▸ hv, hqn ▸ hn, hqo.trans ho.symm, hqn.trans hnum.symm⟩
  cases hfind : s.mke.queue.find? (fun r => r.origin == o.origin && r.number == o.number) with
  | none =>
    have := List.find?_eq_none.mp hfind held hm
    simp [ho, hnum] at this
  | some q =>
    have hq := List.find?_some hfind
    simp only [Bool.and_eq_true, beq_iff_eq] at hq
    have heq := hsame q (List.mem_of_find?_eq_some hfind) hq.1 hq.2
    simp [State.sameIdentity, hv, hn, hfind, heq]

/-! ### The spill record let in -/

/-- The queue has room for every spill entry owed. -/
def Mke.Roomy (m : Mke) : Prop := m.queue.length + m.retired ≤ 64

/-- What a record that enters leaves of the spill record and the room (R31, R36). -/
structure EntersOne (m n : Mke) : Prop where
  spill : n.spill = m.spill
  room : n.queue.length + n.retired ≤ m.queue.length + m.retired + 1

theorem Mke.entersOne_acted {m n : Mke} (h : EntersOne m n) (uid idx : Nat) (st : ActionState) :
    EntersOne m (n.acted uid idx st) := ⟨h.spill, by simpa [Mke.acted] using h.room⟩

theorem State.entersOne_lateAction {m : Mke} {t : State} (h : EntersOne m t.mke) (r : MarkRecord)
    (ia : Nat × Action) : EntersOne m (t.lateAction r ia).mke := by
  obtain ⟨hstay, hfire⟩ := t.mke_lateAction r ia
  cases hreach : reached t.lcu.coord ia.2.triggerPos with
  | false => rwa [hstay hreach]
  | true =>
    obtain ⟨st, -, hmke⟩ := hfire hreach
    rw [hmke]
    exact Mke.entersOne_acted h ..

theorem State.entersOne_examineRecord {m : Mke} {t : State} (h : EntersOne m t.mke) (uid : Nat) :
    EntersOne m (t.examineRecord uid).mke := by
  unfold State.examineRecord
  split
  case isTrue hany =>
    obtain ⟨r, hr, hname⟩ := List.any_eq_true.mp hany
    have hleaves : (t.mke.queue.filter fun q => q.uid != uid).length < t.mke.queue.length :=
      (length_filter_lt_iff ..).mpr ⟨r, hr, by simp only [Bool.and_eq_true, beq_iff_eq] at hname; simp [hname.1]⟩
    refine ⟨h.spill, ?_⟩
    have := h.room
    simp only [State.mke_withMke]
    omega
  case isFalse => exact h

theorem State.entersOne_enterRecord (s : State) (r : MarkRecord) : EntersOne s.mke (s.enterRecord r).mke := by
  have hplaced : ∀ late, EntersOne s.mke (s.placed r late).mke := fun late =>
    ⟨rfl, by simp [State.placed]; omega⟩
  obtain hcount | hcount := Nat.eq_zero_or_pos (s.reachedActions r)
  · rw [State.enterRecord_ahead hcount]
    exact hplaced _
  · rw [State.enterRecord_late hcount]
    refine State.entersOne_examineRecord ?_ _
    exact foldl_kept (fun t => EntersOne s.mke t.mke) (fun t ia h => State.entersOne_lateAction h r ia) _ (hplaced _)

theorem State.entersOne_admitMark (hroom : s.mke.queue.length < 64) (o : MarkOffer) :
    EntersOne s.mke (s.admitMark o).1.mke := by
  unfold State.admitMark
  rw [if_neg (Nat.not_le.mpr hroom)]
  split
  · exact ⟨rfl, Nat.le_succ _⟩
  · exact s.entersOne_enterRecord _

/-- The rounds in which the spill record is used up. -/
def Mke.settleRounds (m : Mke) : Nat :=
  match m.spill with
  | none => 1
  | some sp => (sp.high - sp.low).toNat / 65535 + 2

theorem State.settleSpill_eq (s : State) : s.settleSpill = settleLoop s.mke.settleRounds s := by
  unfold State.settleSpill Mke.settleRounds
  cases hs : s.mke.spill with
  | none => simp [settleLoop, hs]
  | some sp => rfl

/-- One spill entry uses up a round at least, and leaves room for the entries still owed. -/
theorem State.enterSpill_rounds {sp : Spill} (hsp : s.mke.spill = some sp) (hroom : s.mke.Roomy)
    (howed : s.mke.retired ≠ 0) :
    (s.enterSpill sp).mke.Roomy ∧ (s.enterSpill sp).mke.settleRounds + 1 ≤ s.mke.settleRounds := by
  have hroom' : s.mke.queue.length + s.mke.retired ≤ 64 := hroom
  have hlt : s.mke.queue.length < 64 := by omega
  let rest : Option Spill :=
    if 65535 < (sp.high - sp.low).toNat then some { sp with low := sp.low + 65535#32 } else none
  have hone : EntersOne { s.mke with spill := rest, retired := s.mke.retired - 1 } (s.enterSpill sp).mke :=
    State.entersOne_admitMark (s := s.withMke { s.mke with spill := rest, retired := s.mke.retired - 1 }) hlt _
  refine ⟨?_, ?_⟩
  · have := hone.room
    simp only at this
    show _ ≤ 64
    omega
  · have hspill : (s.enterSpill sp).mke.spill = rest := hone.spill
    unfold Mke.settleRounds
    rw [hspill, hsp]
    simp only [rest]
    split
    case h_1 => omega
    case h_2 sp' hrest =>
      split at hrest
      case isTrue hbig =>
        obtain rfl := Option.some.inj hrest
        have hspan : (sp.high - (sp.low + 65535#32)).toNat = (sp.high - sp.low).toNat - 65535 := by bv_omega
        simp only [hspan]
        omega
      case isFalse => cases hrest

/-- More rounds than the spill record needs change nothing. -/
theorem settleLoop_congr {n m : Nat} (hroom : s.mke.Roomy) (hn : s.mke.settleRounds ≤ n)
    (hm : s.mke.settleRounds ≤ m) : settleLoop n s = settleLoop m s := by
  have hone : 1 ≤ s.mke.settleRounds := by unfold Mke.settleRounds; split <;> omega
  induction n generalizing m s with
  | zero => omega
  | succ n ih =>
    obtain ⟨m, rfl⟩ := Nat.exists_eq_succ_of_ne_zero (n := m) (by omega)
    by_cases howed : s.mke.retired = 0
    · simp [settleLoop, howed]
    · cases hs : s.mke.spill with
      | none => simp [settleLoop, howed, hs]
      | some sp =>
        obtain ⟨hroom', hrounds⟩ := State.enterSpill_rounds hs hroom howed
        have hnext : 1 ≤ (s.enterSpill sp).mke.settleRounds := by unfold Mke.settleRounds; split <;> omega
        simp only [settleLoop, if_neg howed, hs]
        exact ih hroom' (by omega) (by omega) hnext

/-- One round of the settling: one spill entry, and the rest as before. -/
theorem State.settleSpill_of_spill {sp : Spill} (hs : s.mke.spill = some sp) (howed : s.mke.retired ≠ 0)
    (hroom : s.mke.Roomy) : s.settleSpill = (s.enterSpill sp).settleSpill := by
  obtain ⟨hroom', hrounds⟩ := State.enterSpill_rounds hs hroom howed
  obtain ⟨n, hn⟩ := Nat.exists_eq_succ_of_ne_zero (n := s.mke.settleRounds) (by omega)
  have hloop : settleLoop s.mke.settleRounds s = settleLoop n (s.enterSpill sp) := by
    rw [hn]
    simp only [settleLoop, if_neg howed, hs]
  rw [State.settleSpill_eq, hloop, State.settleSpill_eq]
  exact settleLoop_congr hroom' (by omega) (Nat.le_refl _)

end Sys2Proof.Machine
end

section
/-! The statements about the mark queue: marks taken, late, spilled and repeated, and the spill record let in. -/

namespace Sys2Proof.Machine

/-! ### Taken marks -/

/-- Settles O32, by what a record is made of, where it is inserted, and that no action of it is late. -/
theorem takenMarkEntersTheQueue : Obligations.TakenMarkEntersTheQueue := by
  refine ⟨fun s o => rfl, fun r q => insertRecord_split r q, fun s o hroom hnew htable hahead => ?_⟩
  have hcount : s.reachedActions (s.makeRecord o) = 0 :=
    List.length_eq_zero_iff.mpr (List.filter_eq_nil_iff.mpr fun a ha => by simp [hahead a ha])
  have hoffer := (State.offerMark_of_new htable hroom hnew).trans (by rw [State.enterRecord_ahead hcount])
  exact ⟨congrArg Prod.fst hoffer, congrArg Prod.snd hoffer⟩

/-! ### The spill record -/

/-- The state of an event with the spill record cut back by one entry (R31). -/
def State.spillTaken (s : State) (sp : Spill) : State :=
  s.withMke { s.mke with
    spill := if 65535 < (sp.high - sp.low).toNat then some { sp with low := sp.low + 65535#32 } else none
    retired := s.mke.retired - 1 }

/-- The spill record settles after an offer as it does after the mark is admitted. -/
theorem State.settleSpill_offerMark {s : State} {o : MarkOffer} (hroom : s.mke.queue.length < 64)
    (hnew : s.sameIdentity o = none) : (s.offerMark o).1.settleSpill = (s.admitMark o).1.settleSpill := by
  by_cases he : tableEntries s.cfg o.kind = []
  · rw [State.offerMark_of_empty he]
    simp [State.admitMark, he]
  · rw [State.offerMark_of_new he hroom hnew]
    simp [State.admitMark, he, Nat.not_le.mpr hroom]

/-- One entry of the spill record is an offer of a BLIND mark. -/
theorem State.settleSpill_of_offer {s : State} {sp : Spill} (hs : s.mke.spill = some sp)
    (howed : s.mke.retired ≠ 0) (hroom : s.mke.Roomy) : s.settleSpill =
      ((s.spillTaken sp).offerMark (s.blindOffer sp.low (min (sp.high - sp.low).toNat 65535) true)).1.settleSpill := by
  have hroom' : s.mke.queue.length + s.mke.retired ≤ 64 := hroom
  have hlt : (s.spillTaken sp).mke.queue.length < 64 := by
    show s.mke.queue.length < 64
    omega
  rw [State.settleSpill_of_spill hs howed hroom]
  exact (State.settleSpill_offerMark hlt (State.sameIdentity_of_blind (s := s) ..)).symm

/-- Settles O26: the examination of a record, and one round of the settling. -/
theorem retirementLetsTheSpillIn : Obligations.RetirementLetsTheSpillIn := by
  refine ⟨fun s uid => ⟨State.examineRecord_of_open, State.examineRecord_of_finished⟩,
    fun s => ⟨State.settleSpill_of_settled, fun hs => ?_, fun low high n k hs hk hroom => ?_⟩⟩
  · by_cases h : s.mke.retired = 0
    · rw [State.settleSpill_of_settled h]
      simp only [← h]
      rfl
    · simp [State.settleSpill, hs, h]
  · have htaken : s.spillTaken ⟨low, high, n⟩ = s.withMke { s.mke with
        spill := if 65535 < (high - low).toNat then some ⟨low + 65535#32, high, n⟩ else none, retired := k } := by
      simp only [State.spillTaken, hk, Nat.add_sub_cancel]
    rw [State.settleSpill_of_offer hs (by omega) hroom, htaken]
    rfl

/-! ### Late, spilled and repeated marks -/

theorem State.reachedActions_eq (s : State) (r : MarkRecord) :
    s.reachedActions r = (r.actions.filter fun a => reached s.lcu.coord a.triggerPos).length := rfl

theorem pending_makeRecord (s : State) (o : MarkOffer) : ∀ a ∈ (s.makeRecord o).actions, a.state = .pending := by
  simp [State.makeRecord, makeAction]

theorem State.lateAction_eq (t : State) (coord : Coord) (h : t.lcu.coord = coord) (r : MarkRecord)
    (ia : Nat × Action) : t.lateAction r ia = if reached coord ia.2.triggerPos = true then
      (match ia.2.type with
      | .hold => t.fireHold r ia.1
      | .record => t.fireRecord r ia.1 true
      | _ => t.setAction r.uid ia.1 .missed) else t := by
  subst h
  unfold State.lateAction
  cases ia.2.type <;> rfl

/-- A fold whose rounds agree on the states it passes through. -/
theorem foldl_congr_of_kept {α : Type} (P : State → Prop) {f g : State → α → State}
    (hf : ∀ t a, P t → P (f t a)) (hfg : ∀ t a, P t → f t a = g t a) (xs : List α) {t : State} (h : P t) :
    xs.foldl f t = xs.foldl g t := by
  induction xs generalizing t with
  | nil => rfl
  | cons x xs ih => rw [List.foldl_cons, List.foldl_cons, ← hfg t x h, ih (hf t x h)]

theorem State.names_makeRecord {s : State} (ok : MkeOk s.mke) (o : MarkOffer) :
    ∀ q ∈ s.mke.queue, q.uid ≠ (s.makeRecord o).uid := fun q hq => Nat.ne_of_lt (ok.names q hq)

/-- Settles O39, by the cases of an offer: no actions, a full queue, a held mark, and late entry. -/
theorem lateSpilledAndRepeatedMarks : Obligations.LateSpilledAndRepeatedMarks := by
  intro s o ok hsettled mark counted stop
  refine ⟨State.offerMark_of_empty, fun htable => ⟨fun hfull => ?_, fun held hm n hroom hlow hhigh hn ho hnum => ?_,
    fun hroom hnew => ?_⟩⟩
  · have hoffer := State.offerMark_of_full (s := s) (o := o) htable (Nat.le_of_eq hfull.symm)
    have hkept : ∀ t : State, t.mke.retired = s.mke.retired → t.settleSpill = t := fun t ht =>
      State.settleSpill_of_settled (ht.trans hsettled)
    refine ⟨fun hspill => ?_, fun low high m hspill => ?_⟩
    · have hfold : s.foldSpill o.ref o.position o.extent =
          counted ((s.withMke { s.mke with spill := some ⟨o.position, stop, 1⟩ }).noticeMark .queueSpill mark
            (some 64#32)) := by
        simp only [State.foldSpill, hspill, hfull]
        rfl
      exact hoffer.trans (congrArg (·, Placement.spilled) ((congrArg State.settleSpill hfold).trans (hkept _ rfl)))
    · have hfold : s.foldSpill o.ref o.position o.extent =
          counted (s.withMke { s.mke with spill := some ⟨if before o.position low then o.position else low,
            if before high stop then stop else high, holdInc 65535 m⟩ }) := by
        simp only [State.foldSpill, hspill]
        rfl
      exact hoffer.trans (congrArg (·, Placement.spilled) ((congrArg State.settleSpill hfold).trans (hkept _ rfl)))
  · have hheld := State.sameIdentity_of_mem (o := o) ok hm (by simp [validStation, hlow, hhigh]) (by simp [hn]) ho
      (hnum.trans hn.symm)
    have href : o.ref = some (o.origin, n) := by simp [MarkOffer.ref, hn]
    refine ⟨fun hr => ?_, fun hr => ?_⟩
    · rw [State.offerMark_of_repeated htable hroom hheld hr, href]
      rfl
    · rw [State.offerMark_of_clash htable hroom hheld hr, href]
      have hblind := State.offerMark_blind (s := s.noticeMark .markClash (some (o.origin, n))) hsettled hroom
        o.position o.extent false
      exact congrArg (·, Placement.clash) hblind.symm
  · intro r past count placed acted noticed hcount
    have hlate : s.placedLate r = noticed := by
      have hacted : (numbered 0 r.actions).foldl (fun t ia => t.lateAction r ia) placed = acted :=
        foldl_congr_of_kept (fun t => t.lcu = s.lcu) (fun t ia ht => by rw [State.lcu_lateAction, ht])
          (fun t ia ht => t.lateAction_eq s.lcu.coord (by rw [ht]) r ia) _ rfl
      exact congrArg (fun t : State => t.noticeMark .markLate r.ref (valueOf (s.reachedActions r))) hacted
    obtain ⟨hstays, hretires⟩ := State.enterRecord_late_spec (State.names_makeRecord ok o) (pending_makeRecord s o)
      hcount
    have hretired : noticed.mke.retired = s.mke.retired := by
      obtain ⟨xs, ys, acts, -, -, hmke⟩ := State.mke_placedLate (State.names_makeRecord ok o)
      rw [← hlate, hmke]
    rw [State.offerMark_of_new htable hroom hnew]
    refine ⟨fun hlt => ?_, fun heq => ?_⟩
    · rw [hstays hlt, hlate, State.settleSpill_of_settled (hretired.trans hsettled)]
    · rw [hretires heq, hlate, hsettled]

end Sys2Proof.Machine
end

section
/-! The end of a pulse on an MS channel, reported to the Mark Engine (R53, R54). -/

namespace Sys2Proof.Machine

variable {s : State} {ch : Fin 4}

/-! ### Examination of several records -/

theorem length_filter_name (q : List MarkRecord) (hq : q.Pairwise fun a b => a.uid ≠ b.uid) (u : Nat)
    (p : MarkRecord → Bool) :
    (q.filter fun r => r.uid == u && p r).length = if q.any (fun r => r.uid == u && p r) = true then 1 else 0 := by
  induction q with
  | nil => rfl
  | cons r q ih =>
    obtain ⟨hr, hq⟩ := List.pairwise_cons.mp hq
    by_cases hu : (r.uid == u && p r) = true
    · have hrest : q.filter (fun r => r.uid == u && p r) = [] :=
        List.filter_eq_nil_iff.mpr fun a ha => by
          have hne := hr a ha
          simp only [Bool.and_eq_true, beq_iff_eq] at hu ⊢
          rintro ⟨h, -⟩
          exact hne (hu.1.trans h.symm)
      simp [hu, hrest]
    · have hu' := Bool.eq_false_iff.mpr hu
      simp only [List.filter_cons, List.any_cons, hu', Bool.false_or, ← ih hq]
      rfl

theorem length_filter_or {α : Type} (p q : α → Bool) (hpq : ∀ a, p a = true → q a = false) (xs : List α) :
    (xs.filter fun a => p a || q a).length = (xs.filter p).length + (xs.filter q).length := by
  induction xs with
  | nil => rfl
  | cons x xs ih =>
    have hx := hpq x
    cases hp : p x <;> cases hq : q x <;> simp_all <;> omega

/-- Records named apart, one examined: it leaves where it has finished (R36). -/
theorem State.examineRecord_eq (hq : s.mke.queue.Pairwise fun a b => a.uid ≠ b.uid) (u : Nat) :
    s.examineRecord u = s.withMke { s.mke with
      queue := s.mke.queue.filter (fun r => !(r.uid == u && r.finished))
      retired := s.mke.retired + (s.mke.queue.filter fun r => r.uid == u && r.finished).length } := by
  rw [length_filter_name _ hq]
  unfold State.examineRecord
  split
  case isTrue hany =>
    obtain ⟨r, hr, hu⟩ := List.any_eq_true.mp hany
    simp only [Bool.and_eq_true, beq_iff_eq] at hu
    have hsame : s.mke.queue.filter (fun q => q.uid != u) =
        s.mke.queue.filter (fun q => !(q.uid == u && q.finished)) := by
      refine List.filter_congr fun q hm => ?_
      by_cases hqr : q = r
      · simp [hqr, hu.1, hu.2]
      · have hsymm : Std.Symm fun a b : MarkRecord => a.uid ≠ b.uid := ⟨fun _ _ h => h.symm⟩
        have hne : q.uid ≠ u := hu.1 ▸ hq.forall hm hr hqr
        rw [bne, beq_eq_false_iff_ne.mpr hne]
        rfl
    rw [hsame]
  case isFalse hany =>
    have hsame : s.mke.queue.filter (fun q => !(q.uid == u && q.finished)) = s.mke.queue :=
      List.filter_eq_self.mpr fun q hm => by
        rw [Bool.eq_false_iff.mpr (List.any_eq_false.mp (Bool.eq_false_iff.mpr hany) q hm)]
        rfl
    simp only [hsame]
    rfl

/-- Records named apart, several examined: those that have finished leave. -/
theorem State.foldl_examineRecord (us : List Nat) (hus : us.Nodup) (s : State)
    (hq : s.mke.queue.Pairwise fun a b => a.uid ≠ b.uid) :
    us.foldl (fun t u => t.examineRecord u) s = s.withMke { s.mke with
      queue := s.mke.queue.filter (fun r => !(us.contains r.uid && r.finished))
      retired := s.mke.retired + (s.mke.queue.filter fun r => us.contains r.uid && r.finished).length } := by
  induction us generalizing s with
  | nil =>
    simp
    rfl
  | cons u us ih =>
    obtain ⟨hu, hus⟩ := List.nodup_cons.mp hus
    have hapart : ∀ r : MarkRecord, (r.uid == u && r.finished) = true → (us.contains r.uid && r.finished) = false :=
      fun r h => by
        simp only [Bool.and_eq_true, beq_iff_eq] at h
        simp [h.1, hu]
    have hsplit : ∀ r : MarkRecord, ((u :: us).contains r.uid && r.finished) =
        ((r.uid == u && r.finished) || (us.contains r.uid && r.finished)) := fun r => by
      rw [List.contains_cons, Bool.and_or_distrib_right]
    have hrest : ∀ r : MarkRecord, ((us.contains r.uid && r.finished) && !(r.uid == u && r.finished)) =
        (us.contains r.uid && r.finished) := fun r => by
      cases h : (r.uid == u && r.finished) with
      | false => simp
      | true => rw [hapart r h]; rfl
    rw [List.foldl_cons, State.examineRecord_eq hq, ih hus _ (hq.filter _)]
    simp only [hsplit, length_filter_or _ _ hapart, State.mke_withMke, List.filter_filter, hrest, Bool.not_or,
      Nat.add_assoc, Bool.and_comm]
    rfl

/-! ### The report -/

/-- A record with the ARMED pulses of a channel ended. -/
def MarkRecord.pulsesEnded (r : MarkRecord) (ch : Fin 4) : MarkRecord :=
  { r with actions := r.actions.map (fun a => if a.armedOn ch then { a with state := .done } else a) }

/-- A record that the end of a pulse retires. -/
def MarkRecord.retiresOn (r : MarkRecord) (ch : Fin 4) : Bool :=
  r.actions.any (fun a => a.armedOn ch) && (r.pulsesEnded ch).finished

/-- The report of an ended pulse where records are named apart (R54). -/
theorem State.pulseEnded_of_apart (hq : s.mke.queue.Pairwise fun a b => a.uid ≠ b.uid) (ch : Fin 4) :
    s.pulseEnded ch = s.withMke { s.mke with
      queue := (s.mke.queue.filter (fun r => !r.retiresOn ch)).map (fun r => r.pulsesEnded ch)
      retired := s.mke.retired + (s.mke.queue.filter fun r => r.retiresOn ch).length } := by
  let us := (s.mke.queue.filter fun r => r.actions.any fun a => a.armedOn ch).map MarkRecord.uid
  let ended := s.withMke { s.mke with queue := s.mke.queue.map fun r => r.pulsesEnded ch }
  have hus : us.Nodup := List.pairwise_map.mpr (hq.filter _)
  have hended : ended.mke.queue.Pairwise fun a b => a.uid ≠ b.uid := List.pairwise_map.mpr hq
  have hmem : ∀ r ∈ s.mke.queue, us.contains r.uid = r.actions.any fun a => a.armedOn ch := by
    intro r hr
    rw [Bool.eq_iff_iff, List.contains_iff_mem]
    refine ⟨fun h => ?_, fun h => List.mem_map_of_mem (List.mem_filter.mpr ⟨hr, h⟩)⟩
    obtain ⟨q, hm, hname⟩ := List.mem_map.mp h
    obtain ⟨hm, hany⟩ := List.mem_filter.mp hm
    by_contra hno
    have hsymm : Std.Symm fun a b : MarkRecord => a.uid ≠ b.uid := ⟨fun _ _ h => h.symm⟩
    exact hq.forall hm hr (fun h => hno (h ▸ hany)) hname
  have hretires : ∀ r ∈ s.mke.queue, (us.contains (r.pulsesEnded ch).uid && (r.pulsesEnded ch).finished) =
      r.retiresOn ch := fun r hr => congrArg (· && (r.pulsesEnded ch).finished) (hmem r hr)
  have hstay : s.mke.queue.filter (fun r => !(us.contains (r.pulsesEnded ch).uid && (r.pulsesEnded ch).finished)) =
      s.mke.queue.filter (fun r => !r.retiresOn ch) :=
    List.filter_congr fun r hr => congrArg (!·) (hretires r hr)
  have hleave : s.mke.queue.filter (fun r => us.contains (r.pulsesEnded ch).uid && (r.pulsesEnded ch).finished) =
      s.mke.queue.filter (fun r => r.retiresOn ch) := List.filter_congr hretires
  have hfold := State.foldl_examineRecord us hus ended hended
  simp only [ended, State.mke_withMke, List.filter_map, List.length_map, Function.comp_def] at hfold
  rw [hstay, hleave] at hfold
  exact hfold

theorem State.enterSpill_eq (s : State) (sp : Spill) : s.enterSpill sp = ((s.spillTaken sp).admitMark
    (s.blindOffer sp.low (min (sp.high - sp.low).toNat 65535) true)).1 := rfl

/-! ### No pulse stays ARMED -/

/-- No PULSE action on a channel is ARMED. -/
def Mke.Quiet (m : Mke) (ch : Fin 4) : Prop := ∀ r ∈ m.queue, ∀ a ∈ r.actions, a.armedOn ch = false

theorem mem_modifyAt {α : Type} {f : α → α} {n : Nat} {xs : List α} {y : α} (h : y ∈ modifyAt f n xs) :
    y ∈ xs ∨ ∃ x ∈ xs, y = f x := by
  induction xs generalizing n with
  | nil => simp [modifyAt] at h
  | cons x xs ih =>
    cases n with
    | zero =>
      obtain rfl | h := List.mem_cons.mp h
      · exact .inr ⟨x, List.mem_cons_self .., rfl⟩
      · exact .inl (List.mem_cons_of_mem _ h)
    | succ n =>
      obtain rfl | h := List.mem_cons.mp h
      · exact .inl (List.mem_cons_self ..)
      · obtain h | ⟨z, hz, rfl⟩ := ih h
        · exact .inl (List.mem_cons_of_mem _ h)
        · exact .inr ⟨z, List.mem_cons_of_mem _ hz, rfl⟩

namespace Mke.Quiet

variable {m : Mke}

theorem of_queue {n : Mke} (h : m.Quiet ch) (e : n.queue = m.queue) : n.Quiet ch := by rwa [Mke.Quiet, e]

theorem acted (h : m.Quiet ch) (uid idx : Nat) {st : ActionState} (hst : st = .done ∨ st = .missed) :
    (m.acted uid idx st).Quiet ch := by
  intro r hr a ha
  obtain ⟨q, hq, rfl⟩ := List.mem_map.mp hr
  split at ha
  · obtain ha | ⟨b, -, rfl⟩ := mem_modifyAt ha
    · exact h q hq a ha
    · obtain rfl | rfl := hst <;> simp [Action.armedOn]
  · exact h q hq a ha

theorem lateAction {t : State} (h : t.mke.Quiet ch) (r : MarkRecord) (ia : Nat × Action) :
    (t.lateAction r ia).mke.Quiet ch := by
  obtain ⟨hstay, hfire⟩ := t.mke_lateAction r ia
  cases hreach : reached t.lcu.coord ia.2.triggerPos with
  | false => rwa [hstay hreach]
  | true =>
    obtain ⟨st, hst, hmke⟩ := hfire hreach
    rw [hmke]
    exact h.acted _ _ hst

theorem examineRecord {t : State} (h : t.mke.Quiet ch) (uid : Nat) : (t.examineRecord uid).mke.Quiet ch := by
  unfold State.examineRecord
  split
  · exact fun r hr => h r (List.mem_of_mem_filter hr)
  · exact h

theorem enterRecord {t : State} (h : t.mke.Quiet ch) {r : MarkRecord} (hr : ∀ a ∈ r.actions, a.state = .pending) :
    (t.enterRecord r).mke.Quiet ch := by
  have hplaced : ∀ late, (t.placed r late).mke.Quiet ch := fun late q hq a ha => by
    obtain rfl | hq := (mem_insertRecord ..).mp hq
    · simp [Action.armedOn, hr a ha]
    · exact h q hq a ha
  obtain hcount | hcount := Nat.eq_zero_or_pos (t.reachedActions r)
  · rw [State.enterRecord_ahead hcount]
    exact hplaced _
  · rw [State.enterRecord_late hcount]
    refine examineRecord ?_ _
    exact foldl_kept (fun t => t.mke.Quiet ch) (fun t ia h => lateAction h r ia) _ (hplaced _)

theorem admitMark {t : State} (h : t.mke.Quiet ch) (o : MarkOffer) : (t.admitMark o).1.mke.Quiet ch := by
  unfold State.admitMark State.foldSpill
  split
  · exact h
  · split
    · simp only
      split <;> exact h
    · exact enterRecord h (pending_makeRecord t o)

theorem settleLoop (n : Nat) {t : State} (h : t.mke.Quiet ch) : (settleLoop n t).mke.Quiet ch := by
  induction n generalizing t with
  | zero => exact h
  | succ n ih =>
    unfold Machine.settleLoop
    split
    · exact h
    · split
      · exact h
      · next sp _ =>
        have htaken : (t.spillTaken sp).mke.Quiet ch := h.of_queue rfl
        refine ih ?_
        rw [State.enterSpill_eq]
        exact htaken.admitMark _

theorem settleSpill {t : State} (h : t.mke.Quiet ch) : t.settleSpill.mke.Quiet ch := by
  rw [State.settleSpill_eq]
  exact settleLoop _ h

end Mke.Quiet

/-- The report leaves no pulse of the channel ARMED (R54). -/
theorem State.quiet_pulseEnded (s : State) (ch : Fin 4) : (s.pulseEnded ch).mke.Quiet ch := by
  refine foldl_kept (fun t => t.mke.Quiet ch) (fun t u h => h.examineRecord u) _ ?_
  intro r hr a ha
  obtain ⟨q, -, rfl⟩ := List.mem_map.mp hr
  obtain ⟨b, -, rfl⟩ := List.mem_map.mp ha
  split
  · simp [Action.armedOn]
  · exact Bool.eq_false_iff.mpr ‹_›

/-! ### The obligation -/

theorem State.msEndReached_iff : s.msEndReached ch = true ↔ (s.cfg.outputs.get ch).unit = .ms ∧
    ∃ stop, (s.aou.channels.get ch).state = .pulsing stop ∧ reached s.stc.now stop = true := by
  unfold State.msEndReached State.unitOf State.channel
  cases (s.cfg.outputs.get ch).unit <;> cases (s.aou.channels.get ch).state <;> simp

theorem exec_msPulseEnd (hlive : s.live = true) (hconfigured : s.configured = true)
    (hend : s.msEndReached ch = true) :
    exec (.msPulseEnd ch) s = .next (((s.idleChannel ch).pulseEnded ch).settleSpill).driven :=
  if_pos (by simp [hlive, hconfigured, hend])

theorem finished_eq (r : MarkRecord) :
    r.finished = r.actions.all (fun a => a.state == .done || a.state == .missed) :=
  List.all_congr rfl fun a => by cases a.state <;> rfl

/-- Settles O29: the channel becomes IDLE, and its report ends the ARMED pulses record by record. -/
theorem msPulseEndsInTime : Obligations.MsPulseEndsInTime := by
  intro ch s stop m hlive hconfigured hms hch hnow
  have hend : s.msEndReached ch = true :=
    State.msEndReached_iff.mpr ⟨hms, stop, by rw [hch], reached_iff.mpr hnow⟩
  have hidle := State.setChannel_of_edge (s := s) (ch := ch) .idle 0 (by simp [hch])
  have haou : (((s.idleChannel ch).pulseEnded ch).settleSpill).aou =
      ⟨s.aou.channels.set ch ⟨.idle, 0⟩, s.aou.edges.set ch (s.aou.edges.get ch + 1)⟩ := by
    rw [State.aou_settleSpill, State.pulseEnded_eq, State.aou_withMke]
    exact congrArg State.aou hidle
  have hscu : (((s.idleChannel ch).pulseEnded ch).settleSpill).scu = s.scu := by
    rw [State.scu_settleSpill, State.pulseEnded_eq, State.scu_withMke, State.scu_idleChannel]
  have hkept := (webFrame_kept s).toKeptByMarks
  refine ⟨_, exec_msPulseEnd hlive hconfigured hend, ?_, ?_, fun ch' hne => ?_, ?_, hscu, ?_, ?_⟩
  · rw [haou]
    simp [Four.get_set]
  · rw [haou]
    simp [Four.get_set]
  · rw [haou]
    simp [Four.get_set, hne]
  · exact (State.quiet_pulseEnded _ ch).settleSpill
  · exact State.settleSpill_kept hkept (State.pulseEnded_kept hkept
      (State.idleChannel_kept hkept (WebFrame.refl s) ch) ch)
  · intro armed ended retires base hq
    have hretires : ∀ r : MarkRecord, r.retiresOn ch = retires r := fun r =>
      congrArg (r.actions.any armed && ·) (finished_eq (r.pulsesEnded ch))
    have hended := State.pulseEnded_of_apart (s := s.idleChannel ch) hq ch
    simp only [hretires] at hended
    have hbase : (s.idleChannel ch).pulseEnded ch = base := hended.trans (by
      rw [State.idleChannel, hidle]
      rfl)
    rw [hbase]

end Sys2Proof.Machine
end

section
/-! Movements at the Mark Engine and the Sensor Capture Unit: which actions fire and which windows close, and in what
order (R32, R73). -/

namespace Sys2Proof.Machine

/-! ### Lists in order -/

theorem mem_numbered {α : Type} {xs : List α} {i : Nat} {x : α} : (i, x) ∈ numbered 0 xs ↔ xs[i]? = some x := by
  rw [List.mem_iff_getElem?]
  simp only [getElem?_numbered, Nat.zero_add, Option.map_eq_some_iff, Prod.mk.injEq]
  constructor
  · rintro ⟨j, y, hj, rfl, rfl⟩
    exact hj
  · exact fun h => ⟨i, x, h, rfl, rfl⟩

theorem pairwise_numbered {α : Type} (n : Nat) (xs : List α) :
    (∀ ix ∈ numbered n xs, n ≤ ix.1) ∧ (numbered n xs).Pairwise (fun a b => a.1 < b.1) := by
  induction xs generalizing n with
  | nil => simp [numbered]
  | cons x xs ih =>
    obtain ⟨hle, hpair⟩ := ih (n + 1)
    refine ⟨fun ix hm => ?_, List.pairwise_cons.mpr ⟨fun ix hm => hle ix hm, hpair⟩⟩
    obtain rfl | hm := List.mem_cons.mp hm
    · exact Nat.le_refl _
    · exact Nat.le_of_succ_le (hle ix hm)

theorem map_snd_numbered {α : Type} (n : Nat) (xs : List α) : (numbered n xs).map Prod.snd = xs := by
  induction xs generalizing n with
  | nil => rfl
  | cons x xs ih => rw [numbered, List.map_cons, ih]

theorem insertByKey_map {α β : Type} (f : α → β) (key : β → Nat) (x : α) (ys : List α) :
    insertByKey key (f x) (ys.map f) = (insertByKey (fun a => key (f a)) x ys).map f := by
  induction ys with
  | nil => rfl
  | cons y ys ih =>
    simp only [List.map_cons, insertByKey]
    split
    · rw [ih, List.map_cons]
    · rfl

theorem sortByKey_map {α β : Type} (f : α → β) (key : β → Nat) (xs : List α) :
    sortByKey key (xs.map f) = (sortByKey (fun a => key (f a)) xs).map f := by
  have hfold : ∀ zs : List α, (xs.map f).foldl (fun acc x => insertByKey key x acc) (zs.map f) =
      (xs.foldl (fun acc x => insertByKey (fun a => key (f a)) x acc) zs).map f := by
    induction xs with
    | nil => exact fun _ => rfl
    | cons x xs ih => exact fun zs => by rw [List.map_cons, List.foldl_cons, insertByKey_map, ih, List.foldl_cons]
  exact hfold []

/-! ### The actions a movement fires -/

/-- The action at a place: the queue index of its record, and its place in the record's list. -/
def State.actionAt (s : State) (x : Nat × Nat) : Option Action := (s.mke.queue[x.1]?).bind fun r => r.actions[x.2]?

/-- The distance of the trigger position of the action at a place. -/
def State.triggerDistance (s : State) (a : Coord) (x : Nat × Nat) : Nat :=
  ((s.actionAt x).map fun c => (c.triggerPos - a).toNat).getD 0

/-- The name of the record at a place. -/
def State.nameAt (s : State) (x : Nat × Nat) : Nat := ((s.mke.queue[x.1]?).map MarkRecord.uid).getD 0

/-- The place of an action comes before another's in the queue (R32). -/
def EarlierPlace (x y : Nat × Nat) : Prop := x.1 < y.1 ∨ (x.1 = y.1 ∧ x.2 < y.2)

/-- The places of the actions a movement reaches, in queue order. -/
def State.placesReached (s : State) (a b : Coord) : List (Nat × Nat) :=
  (numbered 0 s.mke.queue).flatMap fun ir =>
    ((numbered 0 ir.2.actions).filter fun ia => ia.2.state == .pending && reaches a b ia.2.triggerPos).map fun ia =>
      (ir.1, ia.1)

theorem State.actionAt_eq {s : State} {i j : Nat} {r : MarkRecord} {c : Action} (hr : s.mke.queue[i]? = some r)
    (hc : r.actions[j]? = some c) : s.actionAt (i, j) = some c := by simp [State.actionAt, hr, hc]

theorem State.mem_placesReached {s : State} {a b : Coord} {x : Nat × Nat} : x ∈ s.placesReached a b ↔
    ∃ c, s.actionAt x = some c ∧ c.state = .pending ∧ reaches a b c.triggerPos = true := by
  obtain ⟨i, j⟩ := x
  simp only [State.placesReached, List.mem_flatMap, List.mem_map, List.mem_filter, Prod.exists, Prod.mk.injEq,
    mem_numbered, Bool.and_eq_true, beq_iff_eq]
  constructor
  · rintro ⟨i', r, hr, j', c, ⟨hc, hst, hreach⟩, rfl, rfl⟩
    exact ⟨c, State.actionAt_eq hr hc, hst, hreach⟩
  · rintro ⟨c, hc, hst, hreach⟩
    obtain ⟨r, hr, hc⟩ := Option.bind_eq_some_iff.mp hc
    exact ⟨i, r, hr, j, c, ⟨hc, hst, hreach⟩, rfl, rfl⟩

theorem State.pairwise_placesReached (s : State) (a b : Coord) : (s.placesReached a b).Pairwise EarlierPlace := by
  refine List.pairwise_flatMap.mpr ⟨fun ir _ => List.pairwise_map.mpr ?_, ?_⟩
  · exact ((pairwise_numbered 0 ir.2.actions).2.filter _).imp fun h => .inr ⟨rfl, h⟩
  · refine (pairwise_numbered 0 s.mke.queue).2.imp fun h x hx y hy => ?_
    obtain ⟨-, -, rfl⟩ := List.mem_map.mp hx
    obtain ⟨-, -, rfl⟩ := List.mem_map.mp hy
    exact .inl h

/-- The firings of a movement, place by place. -/
theorem State.firings_eq_map (s : State) (a b : Coord) : s.mke.queue.flatMap (fun r => r.firings a b) =
    (s.placesReached a b).map fun x => ⟨s.triggerDistance a x, s.nameAt x, x.2⟩ := by
  have hqueue : s.mke.queue.flatMap (fun r => r.firings a b) =
      (numbered 0 s.mke.queue).flatMap fun ir => ir.2.firings a b := by
    conv_lhs => rw [← map_snd_numbered 0 s.mke.queue, List.flatMap_map]
  rw [hqueue, State.placesReached, List.map_flatMap]
  refine List.flatMap_congr fun ⟨i, r⟩ hir => ?_
  have hr := mem_numbered.mp hir
  rw [List.map_map]
  refine List.map_congr_left fun ⟨j, c⟩ hjc => ?_
  have hc := mem_numbered.mp (List.mem_filter.mp hjc).1
  simp [State.triggerDistance, State.actionAt_eq hr hc, State.nameAt, hr]

/-- Settles O11: the places reached, sorted by the distance of their trigger positions. -/
theorem movementFiresInOrder : Obligations.MovementFiresInOrder := by
  intro s a b action distance name
  refine ⟨sortByKey (s.triggerDistance a) (s.placesReached a b), fun x => ?_,
    pairwise_sortByKey _ EarlierPlace _ (s.pairwise_placesReached a b), ?_⟩
  · rw [mem_sortByKey, State.mem_placesReached]
    simp only [reaches, Bool.and_eq_true, decide_eq_true_eq]
    exact Iff.rfl
  · have hfirings : s.firings a b = (sortByKey (s.triggerDistance a) (s.placesReached a b)).map
        fun x => ⟨s.triggerDistance a x, s.nameAt x, x.2⟩ := by
      rw [State.firings, State.firings_eq_map, sortByKey_map]
    rw [State.mkeMove, hfirings, List.foldl_map]
    rfl

/-! ### The windows a movement closes -/

/-- An open window, with its place in its sensor's list and its sensor. -/
abbrev PlacedWindow := Nat × Fin 4 × Window

/-- The place of a window comes before another's: by place in the list, then by sensor (R73, log 24). -/
def EarlierWindow (x y : PlacedWindow) : Prop := x.1 < y.1 ∨ (x.1 = y.1 ∧ x.2.1 < y.2.1)

/-- The windows of all sensors, sensor by sensor. -/
def State.windowsBySensor (s : State) : List PlacedWindow :=
  fourIndices.flatMap fun n => (numbered 0 (s.scu.windows.get n)).map fun iw => (iw.1, n, iw.2)

/-- The windows a movement closes, with their places, in the order of R73. -/
def State.placedReached (s : State) (a b : Coord) : List PlacedWindow :=
  sortByKey (fun t => (t.2.2.close - a).toNat)
    ((sortByKey (fun t => t.1) s.windowsBySensor).filter fun t => reaches a b t.2.2.close)

theorem State.mem_windowsBySensor {s : State} {i : Nat} {n : Fin 4} {w : Window} :
    (i, n, w) ∈ s.windowsBySensor ↔ (s.scu.windows.get n)[i]? = some w := by
  have hn : n ∈ fourIndices := by revert n; decide
  simp only [State.windowsBySensor, List.mem_flatMap, List.mem_map, Prod.exists, Prod.mk.injEq, mem_numbered]
  constructor
  · rintro ⟨n', -, i', w', hw, rfl, rfl, rfl⟩
    exact hw
  · exact fun hw => ⟨n, hn, i, w, hw, rfl, rfl, rfl⟩

theorem State.pairwise_windowsBySensor (s : State) :
    s.windowsBySensor.Pairwise fun x y => x.1 = y.1 → x.2.1 < y.2.1 := by
  refine List.pairwise_flatMap.mpr ⟨fun n _ => List.pairwise_map.mpr ?_, ?_⟩
  · exact (pairwise_numbered 0 (s.scu.windows.get n)).2.imp fun hlt heq => absurd heq (Nat.ne_of_lt hlt)
  · have hfour : fourIndices.Pairwise (· < ·) := by decide
    refine hfour.imp fun h x hx y hy _ => ?_
    obtain ⟨-, -, rfl⟩ := List.mem_map.mp hx
    obtain ⟨-, -, rfl⟩ := List.mem_map.mp hy
    exact h

theorem State.mem_placedReached {s : State} {a b : Coord} {i : Nat} {n : Fin 4} {w : Window} :
    (i, n, w) ∈ s.placedReached a b ↔ (s.scu.windows.get n)[i]? = some w ∧ reaches a b w.close = true := by
  rw [State.placedReached, mem_sortByKey, List.mem_filter, mem_sortByKey, State.mem_windowsBySensor]

theorem State.pairwise_placedReached (s : State) (a b : Coord) : (s.placedReached a b).Pairwise fun x y =>
    (x.2.2.close - a).toNat < (y.2.2.close - a).toNat ∨
      ((x.2.2.close - a).toNat = (y.2.2.close - a).toNat ∧ EarlierWindow x y) := by
  have hplaces : (sortByKey (fun t => t.1) s.windowsBySensor).Pairwise EarlierWindow :=
    (pairwise_sortByKey _ _ _ s.pairwise_windowsBySensor).imp fun h => h.imp id fun ⟨heq, hlt⟩ => ⟨heq, hlt heq⟩
  exact pairwise_sortByKey _ _ _ (hplaces.filter _)

theorem State.windowsReached_eq (s : State) (a b : Coord) :
    s.windowsReached a b = (s.placedReached a b).map Prod.snd := by
  have hall : s.allWindows = (sortByKey (fun t => t.1) s.windowsBySensor).map Prod.snd := rfl
  rw [State.windowsReached, hall, List.filter_map, sortByKey_map]
  rfl

/-- The count of a miss, its notice, and the claim at the limit (R73, R75). -/
theorem State.countMiss_eq (s : State) (n : Fin 4) (w : Window) : s.countMiss n w =
    (
      let misses := holdInc 255 s.scu.misses
      let noticed := (s.withScu { s.scu with misses := misses }).noticeMark .sightMissed w.mark
        (packTop n.val (BitVec.ofNat 32 misses))
      if misses = s.cfg.missLimit ∧ s.scu.misses < misses ∧ s.holdsClaim 3 = false then noticed.makeClaim 3 .sight none
      else noticed) := by
  have hclaim : ((s.withScu { s.scu with misses := holdInc 255 s.scu.misses }).noticeMark .sightMissed w.mark
      (packTop n.val (BitVec.ofNat 32 (holdInc 255 s.scu.misses)))).holdsClaim 3 = s.holdsClaim 3 := rfl
  simp only [State.countMiss, State.takeSightClaim, hclaim, Bool.and_eq_true, decide_eq_true_eq]
  cases hheld : s.holdsClaim 3 with
  | false => simp
  | true => simp

theorem windowOwned_iff {s : State} {w : Window} :
    s.mke.queue.any (fun r => r.uid == w.owner &&
      (r.actions[w.action]?.any fun a => a.type == .sight && a.state == .armed)) = true ↔
    ∃ r ∈ s.mke.queue, r.uid = w.owner ∧ ∃ a, r.actions[w.action]? = some a ∧ a.type = .sight ∧ a.state = .armed := by
  simp [List.any_eq_true, Option.any_eq_true]

/-- Settles O20: the windows reached sorted by place and sensor, and then by the distance of their closes. -/
theorem movementClosesWindows : Obligations.MovementClosesWindows := by
  refine ⟨fun s n w => ⟨rfl, s.countMiss_eq n w⟩, fun s w captured => ⟨fun h => ?_, fun h => ?_⟩,
    fun s a b => ?_⟩
  · exact if_pos (windowOwned_iff.mpr h)
  · exact if_neg (mt windowOwned_iff.mp h)
  · intro window distance
    refine ⟨(s.placedReached a b).map fun t => (t.2.1, t.1), fun ⟨n, i⟩ => ?_, ?_, ?_⟩
    · simp only [List.mem_map, Prod.exists, Prod.mk.injEq, State.mem_placedReached]
      simp only [reaches, Bool.and_eq_true, decide_eq_true_eq]
      constructor
      · rintro ⟨i', n', w, ⟨hw, hreach⟩, rfl, rfl⟩
        exact ⟨w, hw, hreach⟩
      · rintro ⟨w, hw, hreach⟩
        exact ⟨i, n, w, ⟨hw, hreach⟩, rfl, rfl⟩
    · refine List.pairwise_map.mpr ((s.pairwise_placedReached a b).imp_of_mem fun {x y} hx hy h => ?_)
      obtain ⟨hx, -⟩ := State.mem_placedReached.mp hx
      obtain ⟨hy, -⟩ := State.mem_placedReached.mp hy
      have hdx : distance (x.2.1, x.1) = (x.2.2.close - a).toNat := by simp [distance, window, hx]
      have hdy : distance (y.2.1, y.1) = (y.2.2.close - a).toNat := by simp [distance, window, hy]
      rw [hdx, hdy]
      exact h
    · rw [State.scuMove, State.windowsReached_eq, List.foldl_map, List.foldl_map]
      refine List.foldl_ext _ _ _ fun t x hx => ?_
      obtain ⟨hx, -⟩ := State.mem_placedReached.mp hx
      have hw : window (x.2.1, x.1) = some x.2.2 := hx
      rw [hw]
      rfl

end Sys2Proof.Machine
end

section
/-! A fired action handed to its block, and the entry of a RECORD action in the Roll Map Unit (R33, R58, R59, R118). -/

namespace Sys2Proof.Machine

variable {s : State} {r : MarkRecord} {i : Nat} {a : Action}

/-! ### Firing -/

/-- The record of a name is the one that carries it. -/
theorem find_name (ok : MkeOk s.mke) (hr : r ∈ s.mke.queue) :
    s.mke.queue.find? (fun q => q.uid == r.uid) = some r := by
  cases hfind : s.mke.queue.find? (fun q => q.uid == r.uid) with
  | none => simpa using List.find?_eq_none.mp hfind r hr
  | some q =>
    by_cases hq : q = r
    · rw [hq]
    · have hsymm : Std.Symm Apart := ⟨fun _ _ h => h.swap⟩
      have hapart : Apart q r := ok.distinct.forall (List.mem_of_find?_eq_some hfind) hr hq
      exact absurd (by simpa using List.find?_some hfind) hapart.2

theorem State.fireAction_eq (ok : MkeOk s.mke) (hr : r ∈ s.mke.queue) (ha : r.actions[i]? = some a) :
    s.fireAction r.uid i = if a.state = .pending then (s.handOver r i a).examineRecord r.uid else s := by
  simp [State.fireAction, find_name ok hr, ha]

theorem State.freeClaim_eq_some {n : Nat} (hn : n < 3) (hfree : s.holdsClaim n = false)
    (hheld : ∀ m, m < n → s.holdsClaim m = true) : s.freeClaim = some n := by
  unfold State.freeClaim
  match n, hn with
  | 0, _ => simp [hfree]
  | 1, _ => simp [hfree, hheld 0 (by decide)]
  | 2, _ => simp [hfree, hheld 0 (by decide), hheld 1 (by decide)]

theorem State.freeClaim_eq_none (hheld : ∀ n, n < 3 → s.holdsClaim n = true) : s.freeClaim = none := by
  simp [State.freeClaim, hheld 0, hheld 1, hheld 2]

theorem State.fireHold_of_free {n : Nat} (h : s.freeClaim = some n) (r : MarkRecord) (i : Nat) :
    s.fireHold r i = (s.makeClaim n .mark r.ref).setAction r.uid i .done := by simp [State.fireHold, h]

theorem State.fireHold_of_held (h : s.freeClaim = none) (r : MarkRecord) (i : Nat) :
    s.fireHold r i = (s.noticeMark .holdSlotsFull r.ref).setAction r.uid i .missed := by simp [State.fireHold, h]

theorem State.handOver_pulse {ch : Fin 4} (ht : a.type = .pulse) (hp : a.param = some ch) : s.handOver r i a =
    match (s.cfg.outputs.get ch).unit with
    | .wu => (s.pulseRequest ch a.actionPos a.width r.ref).setAction r.uid i .done
    | .ms => (s.setAction r.uid i .armed).pulseRequest ch a.actionPos a.width r.ref := by
  unfold State.handOver
  rw [ht, hp]
  rfl

/-! ### The entry in the Roll Map Unit -/

/-- An entry put into a set, which then takes its place in the Roll Map Unit; at a full set it is dropped (R118,
R119). -/
def State.entered (s : State) (r : RollSet) (e : RollEntry) (hold : RollSet → Rmu) : State :=
  (s.enter r e).1.withRmu (hold (s.enter r e).2)

theorem State.entered_eq (s : State) (r : RollSet) (e : RollEntry) (hold : RollSet → Rmu) : s.entered r e hold =
    if r.entries.length < 256 then s.withRmu (hold { r with entries := insertEntry e r.entries })
    else (if r.dropped = 0 then s.noticeMark .setOverflow e.mark (some (BitVec.ofNat 32 r.number)) else s).withRmu
      (hold { r with overflow := true, dropped := holdInc 65535 r.dropped }) := by
  unfold State.entered State.enter
  split <;> rfl

theorem State.withRmu_enter (r : RollSet) (e : RollEntry) (hold : Rmu → RollSet → Rmu) :
    (s.enter r e).1.withRmu (hold (s.enter r e).1.rmu (s.enter r e).2) = s.entered r e (hold s.rmu) := by
  rw [State.rmu_enter]
  rfl

/-- An entry at the cut of a CLOSING set or after it goes to the NEXT set (R118). -/
theorem State.recordEntry_next {cur nxt : RollSet} {k : Coord} (h : RecordHandoff) (hc : s.rmu.current = some cur)
    (hk : cur.cut = some k) (hn : s.rmu.next = some nxt) (hafter : h.position = k ∨ before k h.position = true) :
    s.recordEntry h = s.entered nxt (h.entry nxt.start) (fun x => { s.rmu with next := some x }) := by
  have hpast : (h.position == k || before k h.position) = true := by simpa using hafter
  refine Eq.trans ?_ (State.withRmu_enter nxt (h.entry nxt.start) fun rmu x => { rmu with next := some x })
  unfold State.recordEntry
  simp only [hc, hk, hn, hpast, if_true]

/-- Any other entry goes to the current set. -/
theorem State.recordEntry_current {cur : RollSet} (h : RecordHandoff) (hc : s.rmu.current = some cur)
    (hcut : ∀ k nxt, cur.cut = some k → s.rmu.next = some nxt →
      ¬ (h.position = k ∨ before k h.position = true)) :
    s.recordEntry h = s.entered cur (h.entry cur.start) (fun x => { s.rmu with current := some x }) := by
  refine Eq.trans ?_ (State.withRmu_enter cur (h.entry cur.start) fun rmu x => { rmu with current := some x })
  unfold State.recordEntry
  simp only [hc]
  split
  · next k nxt hk hn =>
    have hpast : (h.position == k || before k h.position) = false := by simpa using hcut k nxt hk hn
    rw [hpast]
    rfl
  · rfl

/-- Settles O13: each action by its type and parameter, and an entry by the set that takes it. -/
theorem firedActionIsHandedOver : Obligations.FiredActionIsHandedOver := by
  refine ⟨fun s ok r hr i a ha => ⟨fun hst => ?_, fun hst => ?_⟩, fun s h cur hc => ?_⟩
  · rw [State.fireAction_eq ok hr ha, if_neg hst]
  · intro mark put fires
    have hfires : ∀ t, s.handOver r i a = t → fires t := fun t ht => by
      rw [← ht]
      exact (State.fireAction_eq ok hr ha).trans (if_pos hst)
    refine ⟨fun ch ht hp => hfires _ (State.handOver_pulse ht hp), fun ch hp => ⟨fun ht => ?_, fun ht => ?_,
      fun ht => ?_⟩,
      fun ht => ⟨fun n hn hfree hheld => ⟨?_, s.holdsFor_makeClaim .., fun hl => State.mem_makeClaim hl ..⟩,
      fun hheld => ?_⟩, fun n ht hp => ?_, fun ht => ?_, fun ht => ?_⟩
    all_goals refine hfires _ ?_
    · simp only [State.handOver, ht, hp]
      rfl
    · simp only [State.handOver, ht, hp]
      rfl
    · simp only [State.handOver, ht, hp]
      rfl
    · simp only [State.handOver, ht]
      exact State.fireHold_of_free (State.freeClaim_eq_some hn hfree hheld) r i
    · simp only [State.handOver, ht]
      exact State.fireHold_of_held (State.freeClaim_eq_none hheld) r i
    · simp only [State.handOver, ht, hp]
      rfl
    · simp only [State.handOver, ht]
      rfl
    · simp only [State.handOver, ht]
      rfl
  · intro entered
    have hentered : ∀ q hold, s.entered q (h.entry q.start) hold = entered q hold := fun q hold =>
      State.entered_eq s q (h.entry q.start) hold
    split
    · next k nxt hk hn =>
      split
      case isTrue hafter => rw [State.recordEntry_next h hc hk hn hafter, hentered]
      case isFalse hbefore =>
        rw [State.recordEntry_current h hc (fun k' nxt' hk' hn' => ?_), hentered]
        obtain rfl := Option.some.inj (hk.symm.trans hk')
        exact hbefore
    · next hnone => rw [State.recordEntry_current h hc (fun k nxt hk hn => (hnone k nxt hk hn).elim), hentered]

end Sys2Proof.Machine
end

section
/-! Closes of roll sets: the entries that find a set full, what a close leaves, and the cut that moves (R118, R119,
R121 to R123, R127, R132). -/

namespace Sys2Proof.Machine

/-! ### Insertion into a set -/

theorem insertEntry_eq (e : RollEntry) (xs : List RollEntry) : insertEntry e xs =
    xs.takeWhile (fun x => x.position ≤ e.position) ++ e :: xs.dropWhile (fun x => x.position ≤ e.position) := by
  unfold insertEntry
  induction xs with
  | nil => rfl
  | cons x xs ih =>
    by_cases h : x.position ≤ e.position
    · simp [insertByKey, h, ih]
    · simp [insertByKey, h]

theorem insertBefore_eq (e : RollEntry) (xs : List RollEntry) : insertBefore e xs =
    xs.takeWhile (fun x => x.position < e.position) ++ e :: xs.dropWhile (fun x => x.position < e.position) := by
  induction xs with
  | nil => rfl
  | cons x xs ih =>
    by_cases h : x.position < e.position
    · simp [insertBefore, h, ih]
    · simp [insertBefore, h]

/-! ### Entries that find a set full -/

/-- The entries a set has no room for (R119). -/
def RollSet.lost (r : RollSet) (ys : List RollEntry) : List RollEntry := ys.drop (256 - r.entries.length)

/-- The notice of the first of dropped entries, at a set that has dropped none (R119, log 33). -/
def State.toldOf (s : State) (r : RollSet) (dropped : List RollEntry) : State :=
  match dropped with
  | y :: _ => if r.dropped = 0 then s.noticeMark .setOverflow y.mark (some (BitVec.ofNat 32 r.number)) else s
  | [] => s

/-- A set that has dropped entries (R119). -/
def RollSet.dropping (r : RollSet) (dropped : List RollEntry) : RollSet :=
  { r with overflow := r.overflow || !dropped.isEmpty, dropped := min 65535 (r.dropped + dropped.length) }

theorem holdInc_eq_min {top n : Nat} (h : n ≤ top) : holdInc top n = min top (n + 1) := by
  unfold holdInc
  split <;> omega

theorem State.toldOf_of_dropped {r : RollSet} (s : State) (es : List RollEntry) (h : r.dropped ≠ 0) :
    s.toldOf r es = s := by
  cases es with
  | nil => rfl
  | cons e es => exact if_neg h

/-- Entries dropped one after another: the first is noticed, all are counted (R119). -/
theorem State.dropAll_spec (es : List RollEntry) (s : State) (r : RollSet) (h : r.dropped ≤ 65535) :
    s.dropAll r es = (s.toldOf r es, r.dropping es) := by
  induction es generalizing s r with
  | nil => simp [State.dropAll, State.toldOf, RollSet.dropping, Nat.min_eq_right h]
  | cons e es ih =>
    have hone : (s.dropEntry r e).2 = r.dropping [e] := by
      simp [State.dropEntry, RollSet.dropping, holdInc_eq_min h]
    have hcount : (r.dropping [e]).dropped = min 65535 (r.dropped + 1) := rfl
    have hrest := ih (s.dropEntry r e).1 (r.dropping [e]) (by omega)
    rw [State.toldOf_of_dropped _ _ (by omega)] at hrest
    have hcons : s.dropAll r (e :: es) = (s.dropEntry r e).1.dropAll (s.dropEntry r e).2 es := rfl
    rw [hcons, hone, hrest]
    refine Prod.ext rfl ?_
    simp only [RollSet.dropping, List.isEmpty_cons, Bool.not_false, Bool.or_true, Bool.true_or, List.length_cons,
      List.length_nil]
    congr 1
    omega

/-- Entries that arrive one after another: those the set has room for stand in it, and the others are dropped. -/
theorem State.enterAll_split (es : List RollEntry) (s : State) (r : RollSet) : s.enterAll r es =
    s.dropAll { r with entries := (es.take (256 - r.entries.length)).foldl (fun zs y => insertEntry y zs) r.entries }
      (r.lost es) := by
  induction es generalizing s r with
  | nil => simp [State.enterAll, State.dropAll, RollSet.lost]
  | cons e es ih =>
    have hcons : s.enterAll r (e :: es) = (s.enter r e).1.enterAll (s.enter r e).2 es := rfl
    by_cases hroom : r.entries.length < 256
    · have henter : s.enter r e = (s, { r with entries := insertEntry e r.entries }) := if_pos hroom
      have hlength : (insertEntry e r.entries).length = r.entries.length + 1 := length_insertByKey ..
      obtain ⟨n, hn⟩ : ∃ n, 256 - r.entries.length = n + 1 := ⟨255 - r.entries.length, by omega⟩
      have hn' : 256 - (r.entries.length + 1) = n := by omega
      rw [hcons, henter, ih]
      simp only [RollSet.lost, hlength, hn', hn, List.take_succ_cons, List.drop_succ_cons, List.foldl_cons]
    · have henter : s.enter r e = s.dropEntry r e := if_neg hroom
      have hzero : 256 - r.entries.length = 0 := by omega
      have hzero' : 256 - (s.dropEntry r e).2.entries.length = 0 := hzero
      rw [hcons, henter, ih]
      simp only [RollSet.lost, hzero, hzero', List.take_zero, List.drop_zero, List.foldl_nil]
      rfl

/-- A set with the entries it has room for put into it, and the others dropped (R118, R119). -/
def RollSet.filled (r : RollSet) (ys : List RollEntry)
    (put : List RollEntry → List RollEntry → List RollEntry) : RollSet :=
  { r with
    entries := put (ys.take (256 - r.entries.length)) r.entries
    overflow := r.overflow || !(r.lost ys).isEmpty
    dropped := min 65535 (r.dropped + (r.lost ys).length) }

theorem State.enterAll_spec (es : List RollEntry) (s : State) (r : RollSet) (h : r.dropped ≤ 65535) :
    s.enterAll r es = (s.toldOf r (r.lost es), r.filled es fun ys zs => ys.foldl (fun us y => insertEntry y us) zs) :=
  (State.enterAll_split es s r).trans (State.dropAll_spec _ s _ h)

theorem State.carryInto_spec (es : List RollEntry) (s : State) (r : RollSet) (h : r.dropped ≤ 65535) :
    s.carryInto r es = (s.toldOf r (r.lost es), r.filled es fun ys zs => ys.foldr insertBefore zs) :=
  State.dropAll_spec _ s _ h

theorem State.toldOf_eq (s : State) (r : RollSet) (es : List RollEntry) :
    s.toldOf r es = s.withLpt (s.toldOf r es).lpt := by
  unfold State.toldOf
  split
  · split <;> rfl
  · rfl

/-! ### A close -/

/-- A closed set as it joins the closed-set queue (R122). -/
def State.closedAt (s : State) (cur : RollSet) (k : Coord) : ClosedSet :=
  ⟨{ cur with cut := some k, entries := cur.entries.filterMap (keptPart (endLength cur.start k)) },
    endLength cur.start k, s.lcu.epoch, .none, false⟩

theorem State.closeAt_spec (s : State) (cur : RollSet) {fol : RollSet} (k : Coord) (h : fol.dropped ≤ 65535) :
    s.closeAt cur fol k =
      (
        let carried := cur.entries.filterMap (carriedPart (endLength cur.start k))
        (s.toldOf fol (fol.lost carried), s.closedAt cur k,
          fol.filled carried fun ys zs => ys.foldr insertBefore zs)) := by
  unfold State.closeAt
  simp only
  rw [State.carryInto_spec _ s _ h]
  rfl

/-- The closed set joins the queue, and the following set becomes current; the oldest of four is lost (R123, R132). -/
def State.appended (base s : State) (wound : Rmu) (c : ClosedSet) : State :=
  match s.rmu.closed, decide (s.rmu.closed.length = 4) with
  | oldest :: rest, true =>
    ((base.withStc { s.stc with
      counters := { s.stc.counters with setsLost := holdInc 65535 s.stc.counters.setsLost }
      fault := some ⟨.setLost, s.stc.now, s.cfg.station⟩ }).notice .setLost none none
        (some ((BitVec.ofNat 32 oldest.set.number <<< 16) ||| (if oldest.read then 1#32 else 0#32)))).withRmu
          { wound with
            closed := rest ++ [c]
            pendingRead := s.rmu.pendingRead.filter (fun p => p.1 != oldest.set.number) }
  | _, _ => base.withRmu { wound with closed := s.rmu.closed ++ [c] }

theorem State.appended_of_room {s : State} (base : State) (wound : Rmu) (c : ClosedSet)
    (h : s.rmu.closed.length ≠ 4) :
    base.appended s wound c = base.withRmu { wound with closed := s.rmu.closed ++ [c] } := by
  unfold State.appended
  split
  · next hfull => exact absurd (of_decide_eq_true hfull) h
  · rfl

theorem State.appended_of_full {s : State} {oldest : ClosedSet} {rest : List ClosedSet} (base : State) (wound : Rmu)
    (c : ClosedSet) (hc : s.rmu.closed = oldest :: rest) (h : s.rmu.closed.length = 4) :
    base.appended s wound c =
      ((base.withStc { s.stc with
        counters := { s.stc.counters with setsLost := holdInc 65535 s.stc.counters.setsLost }
        fault := some ⟨.setLost, s.stc.now, s.cfg.station⟩ }).notice .setLost none none
          (some ((BitVec.ofNat 32 oldest.set.number <<< 16) ||| (if oldest.read then 1#32 else 0#32)))).withRmu
            { wound with
              closed := rest ++ [c]
              pendingRead := s.rmu.pendingRead.filter (fun p => p.1 != oldest.set.number) } := by
  unfold State.appended
  split
  · next o r hor _ =>
    obtain ⟨rfl, rfl⟩ := List.cons.inj (hc.symm.trans hor)
    rfl
  · next hnot => exact (hnot oldest rest hc (decide_eq_true h)).elim

theorem State.appendClosed_of_room {s : State} (c : ClosedSet) (h : s.rmu.closed.length < 4) :
    s.appendClosed c = s.withRmu { s.rmu with closed := s.rmu.closed ++ [c] } := by
  unfold State.appendClosed
  split
  · exact if_neg (Nat.not_le.mpr h)
  · next hnil => rw [hnil, List.nil_append]

theorem State.appendClosed_of_full {s : State} {oldest : ClosedSet} {rest : List ClosedSet} (c : ClosedSet)
    (hc : s.rmu.closed = oldest :: rest) (h : 4 ≤ s.rmu.closed.length) : s.appendClosed c =
      (((s.count .setsLost).recordFault .setLost s.cfg.station).notice .setLost none none
        (packHalves oldest.set.number oldest.read.toNat)).withRmu { s.rmu with
          closed := rest ++ [c]
          pendingRead := s.rmu.pendingRead.filter (fun p => p.1 != oldest.set.number) } := by
  unfold State.appendClosed
  split
  · next o r hor =>
    obtain ⟨rfl, rfl⟩ := List.cons.inj (hc.symm.trans hor)
    exact if_pos h
  · next hnil => rw [hnil] at hc; cases hc

theorem packHalves_read (n : Nat) (read : Bool) : packHalves n read.toNat =
    some ((BitVec.ofNat 32 n <<< 16) ||| (if read then 1#32 else 0#32)) := by
  cases read <;> rfl

theorem State.replaceCurrent_eq (s : State) (l : Lpt) (c : ClosedSet) (fol : RollSet) (h : s.rmu.closed.length ≤ 4) :
    (s.withLpt l).replaceCurrent c fol =
      (s.withLpt l).appended s { s.rmu with current := some fol, next := none } c := by
  unfold State.replaceCurrent
  by_cases hfull : s.rmu.closed.length = 4
  · obtain ⟨oldest, rest, hc⟩ := List.exists_cons_of_length_pos (l := s.rmu.closed) (by omega)
    rw [State.appended_of_full _ _ _ hc hfull,
      State.appendClosed_of_full (s := s.withLpt l) c hc (Nat.le_of_eq hfull.symm), packHalves_read]
    rfl
  · rw [State.appended_of_room _ _ _ hfull,
      State.appendClosed_of_room (s := s.withLpt l) c (Nat.lt_of_le_of_ne h hfull)]
    rfl

theorem State.cfg_appended {base s : State} (wound : Rmu) (c : ClosedSet) (h : base.stc = s.stc) :
    (base.appended s wound c).cfg = s.cfg ∧ (base.appended s wound c).stc.station = s.stc.station := by
  unfold State.appended
  split
  · exact ⟨rfl, rfl⟩
  · exact ⟨congrArg (fun x : Stc => x.config.getD .blank) h, congrArg Stc.station h⟩

/-- What is said of a close (R123, R124). -/
def State.announcedClose (s : State) (active : Bool) (number : Nat) (k : Coord) : State :=
  if active then
    if s.lbi.normalFree then (s.withLbi (s.lbi.queueNormal (.cutover k number))).announce number .queued
    else (s.announce number .notSent).notice .cutNotSent none none (some (BitVec.ofNat 32 number))
  else s

theorem State.station_cutPulse (s : State) (k : Coord) : (s.cutPulse k).stc.station = s.stc.station := by
  have hkept := (webFrame_kept s).toKeptByMarks
  unfold State.cutPulse
  split
  · exact (State.settleSpill_kept hkept (State.pulseRequest_kept hkept (WebFrame.refl s) ..)).stc.station
  · rfl

/-- The cut pulse of a close at `k`, of a cut channel and a width (R57). -/
def State.pulsedOn (s : State) (channel : Option (Fin 4)) (k : Coord) (width : Nat) : State :=
  match channel with
  | none => s
  | some ch => (s.pulseRequest ch k width none).settleSpill

theorem State.cutPulse_eq (s : State) (k : Coord) : s.cutPulse k = s.pulsedOn s.cfg.cutChannel k s.cfg.cutWidth := by
  unfold State.cutPulse State.pulsedOn
  cases s.cfg.cutChannel <;> rfl

theorem State.announceClose_eq (s : State) (n : Nat) (k : Coord) (own : Bool) :
    s.announceClose n k own = s.announcedClose (own && s.isActive) n k := rfl

theorem State.rmuMove_of_reached {s : State} {a b : Coord} {cur nxt : RollSet} {k : Coord}
    (hc : s.rmu.current = some cur) (hn : s.rmu.next = some nxt) (hk : cur.cut = some k)
    (h : reaches a b k = true) : s.rmuMove a b = s.closeSet cur nxt k cur.followed.isNone := by
  simp [State.rmuMove, hc, hn, hk, h]

theorem State.rmuMove_of_not_reached {s : State} {a b : Coord} (h : ∀ cur nxt k, s.rmu.current = some cur →
    s.rmu.next = some nxt → cur.cut = some k → reaches a b k = false) : s.rmuMove a b = s := by
  unfold State.rmuMove
  split
  · next cur nxt hc hn =>
    split
    · next k hk => simp [h cur nxt k hc hn hk]
    · rfl
  · rfl

/-- A close, part by part, from what it does to the sets (R122, R123). -/
theorem State.closeSet_eq {s base : State} {cur fol fol' : RollSet} {k : Coord} {c : ClosedSet} (own : Bool)
    (hclose : s.closeAt cur fol k = (base, c, fol')) : s.closeSet cur fol k own =
      (((base.replaceCurrent c fol').cutPulse k).announceClose c.set.number k own).notice .setClosed
        (some (s.closeOrigin c)) none (setClosedValue c) := by
  simp only [State.closeSet, hclose]

/-- Settles O27: insertion, a close, a cut that moves, and the movement that reaches a cut. -/
theorem movementCompletesACut : Obligations.MovementCompletesACut := by
  refine ⟨fun e xs => ⟨insertEntry_eq e xs, insertBefore_eq e xs⟩, ?_, fun s a b => ⟨fun hnone => ?_, ?_⟩⟩
  · intro lost told filled
    have htold : ∀ s r ys, State.toldOf s r (r.lost ys) = told s r ys := fun s r ys => by
      unfold State.toldOf
      simp only [told, lost]
      rfl
    refine ⟨fun s cur fol k own hclosed hfol => ?_, fun s cur nxt k hcur hnxt => ?_⟩
    · intro len kept carried c base wound appended pulsed announce announced
      have hclose : s.closeAt cur fol k = (base, c, filled fol carried (fun ys es => ys.foldr insertBefore es)) := by
        rw [State.closeAt_spec s cur k hfol]
        exact Prod.ext (htold s fol carried) rfl
      have hbase : base = s.withLpt base.lpt := by
        have h := State.toldOf_eq s fol (fol.lost carried)
        rwa [htold] at h
      have happended : base.replaceCurrent c (filled fol carried (fun ys es => ys.foldr insertBefore es)) =
          appended := by
        rw [hbase, State.replaceCurrent_eq s _ _ _ hclosed, ← hbase]
        rfl
      have hstc : base.stc = s.stc := (congrArg State.stc hbase :)
      obtain ⟨hcfg, hstation⟩ : appended.cfg = s.cfg ∧ appended.stc.station = s.stc.station :=
        State.cfg_appended wound c hstc
      have hpulsed : appended.cutPulse k = pulsed := by
        rw [State.cutPulse_eq, hcfg]
        rfl
      have hactive : pulsed.isActive = s.isActive := by
        have h := State.station_cutPulse appended k
        rw [hpulsed, hstation] at h
        exact congrArg (· == StationState.active) h
      have hannounced : pulsed.announceClose cur.number k own = announced := by
        rw [State.announceClose_eq, hactive]
        by_cases hown : own = true ∧ s.stc.station = .active
        · have hown' : (own && s.isActive) = true := by simpa [State.isActive] using hown
          rw [hown']
          exact (if_pos hown).symm
        · have hown' : (own && s.isActive) = false := by simpa [State.isActive] using hown
          rw [hown']
          exact (if_neg hown).symm
      rw [State.closeSet_eq own hclose, happended, hpulsed]
      exact congrArg (fun t : State => t.notice .setClosed (some (s.closeOrigin c)) none (setClosedValue c)) hannounced
    · intro stands after moved arrive cur' nxt' toCur toNxt
      have hmove : s.moveCut cur nxt k = (((s.enterAll cur' toCur).1.enterAll nxt' toNxt).1,
          (s.enterAll cur' toCur).2, ((s.enterAll cur' toCur).1.enterAll nxt' toNxt).2) := rfl
      rw [hmove, State.enterAll_spec _ _ nxt' hnxt, State.enterAll_spec _ _ cur' hcur, htold, htold]
      rfl
  · exact State.rmuMove_of_not_reached hnone
  · intro cur nxt k hc hn hk hreach
    rw [State.rmuMove_of_reached hc hn hk hreach]
    cases cur.followed <;> rfl

end Sys2Proof.Machine
end

section
/-! A sighting: the window an edge is taken for, what its close leaves, and the trim (R8, R70 to R72). -/

namespace Sys2Proof.Machine

variable {s : State}

/-! ### The window served -/

theorem mem_of_servedWindow {ws : List Window} {v : Window} (h : servedWindow ws = some v) : v ∈ ws := by
  induction ws generalizing v with
  | nil => cases h
  | cons w ws ih =>
    unfold servedWindow at h
    split at h
    · obtain rfl := Option.some.inj h
      exact List.mem_cons_self ..
    · next u hu =>
      split at h
      · obtain rfl := Option.some.inj h
        exact List.mem_cons_of_mem _ (ih hu)
      · obtain rfl := Option.some.inj h
        exact List.mem_cons_self ..

/-- An edge is taken for the window that closes earliest, the first in the list among equals (R70). -/
theorem servedWindow_of_earliest {xs ys : List Window} {w : Window} (hxs : ∀ v ∈ xs, before w.close v.close = true)
    (hys : ∀ v ∈ ys, before v.close w.close = false) : servedWindow (xs ++ w :: ys) = some w := by
  induction xs with
  | nil =>
    rw [List.nil_append, servedWindow]
    split
    · rfl
    · next v hv => simp [hys v (mem_of_servedWindow hv)]
  | cons x xs ih =>
    have hrest := ih fun v hv => hxs v (List.mem_cons_of_mem _ hv)
    simp only [List.cons_append, servedWindow, hrest, hxs x (List.mem_cons_self ..), if_true]

/-! ### What a sighting keeps -/

/-- What a sighting leaves unchanged, whatever the trim does. -/
structure SightFrame (s t : State) : Prop where
  filtered : t.scu.filtered = s.scu.filtered
  captures : t.scu.captures = s.scu.captures
  numbering : SameNumbering s.mke t.mke
  station : SameStation s.stc t.stc
  slot : t.lpt.slot = s.lpt.slot

theorem SameStation.trans {a b c : Stc} (h : SameStation a b) (k : SameStation b c) : SameStation a c :=
  ⟨k.station.trans h.station, k.config.trans h.config, k.locked.trans h.locked, k.join.trans h.join,
    k.now.trans h.now⟩

theorem WebFrame.sightFrame {s t : State} (h : WebFrame s t) : SightFrame s t :=
  ⟨h.filtered, h.captures, h.mke, h.stc, h.slot⟩

theorem SightFrame.trans {s t u : State} (h : SightFrame s t) (k : SightFrame t u) : SightFrame s u :=
  ⟨k.filtered.trans h.filtered, k.captures.trans h.captures, h.numbering.trans k.numbering,
    h.station.trans k.station, k.slot.trans h.slot⟩

theorem SameStation.cfg {s t : State} (h : SameStation s.stc t.stc) : t.cfg = s.cfg :=
  congrArg (fun c : Option Settings => c.getD .blank) h.config

/-! ### The release of a SIGHT claim -/

/-- What the release of claim 3 leaves (R104, R108, R110). -/
structure ReleasesSight (hit v : State) : Prop where
  frame : v = (hit.withHtu v.htu).withLbi v.lbi
  table : ∀ r, r ∈ v.htu.table ↔ r ∈ hit.htu.table ∧ ¬ (r.origin = hit.cfg.station ∧ r.claim = 3)
  htu : v.htu = { hit.htu with table := v.htu.table, tail := v.htu.tail }
  tail : v.htu.tail = if ∃ r ∈ v.htu.table, r.origin = hit.cfg.station then hit.htu.tail else 3
  lbi : v.lbi = { hit.lbi with urgent := v.lbi.urgent }
  release : hit.lbi.accepts = true → .release 3 ∈ v.lbi.urgent

theorem State.releaseSightClaim_of_held (h : s.holdsFor 3 .sight = true) : ReleasesSight s s.releaseSightClaim := by
  have hrelease : s.releaseSightClaim = (s.withHtu { s.htu with
      table := dropHold s.cfg.station 3 s.htu.table
      tail := if (dropHold s.cfg.station 3 s.htu.table).any (fun q => q.origin == s.cfg.station) then s.htu.tail
        else 3 }).withLbi (s.lbi.queueClaim 3 (.release 3)) := by
    rw [State.releaseSightClaim, if_pos h, State.releaseClaim, if_pos (State.holdsClaim_of_holdsFor h)]
  rw [hrelease]
  refine ⟨rfl, fun r => ?_, rfl, ?_, ?_, fun ha => Lbi.mem_queueClaim ha 3 _⟩
  · exact mem_dropHold
  · simp only [List.any_eq_true, beq_iff_eq]
    rfl
  · simp only [State.lbi_withLbi]
    unfold Lbi.queueClaim
    split
    · split <;> rfl
    · rfl

theorem State.releaseSightClaim_of_not_held (h : s.holdsFor 3 .sight = false) : s.releaseSightClaim = s :=
  if_neg (by simp [h])

/-! ### The trim -/

/-- The divisor of a trim gain (R72). -/
def trimDivisor : TrimGain → Int
  | .full => 1
  | .half => 2
  | .quarter => 4

theorem trimOf_eq (gain : TrimGain) (e : Int) : trimOf gain e = -(Int.tdiv e (trimDivisor gain)) := by
  cases gain <;> simp [trimOf, trimDivisor]

theorem ofSigned_neg (x : Int) : ofSigned (-x) = -(BitVec.ofInt 32 x) := BitVec.ofInt_neg

/-- A trim moves the coordinate, as one movement (R8, R74). -/
theorem State.trim_eq (s : State) (t : Int) (order : List MoveBlock) : s.trim (-t) order =
    (s.withLcu { s.lcu with coord := s.lcu.coord - BitVec.ofInt 32 t }).movedFrom s.lcu.coord order := by
  unfold State.trim
  split
  case isTrue hzero =>
    obtain rfl : t = 0 := by omega
    have hcoord : s.lcu.coord - BitVec.ofInt 32 0 = s.lcu.coord := by simp
    rw [hcoord]
    exact (State.movedFrom_of_not_before (s := s) order (before_self _)).symm
  case isFalse => rw [ofSigned_neg, ← BitVec.sub_eq_add_neg]

/-- A trim against a capture error of 0 or more is no forward movement. -/
theorem not_before_trim (c : Coord) {x : BitVec 32} {d : Int} (hd : 1 ≤ d) (hx : 0 ≤ x.toInt) :
    before c (c - BitVec.ofInt 32 (Int.tdiv x.toInt d)) = false := by
  have hle : Int.tdiv x.toInt d ≤ x.toInt := Int.tdiv_le_self _ hx
  have hnonneg : 0 ≤ Int.tdiv x.toInt d := Int.tdiv_nonneg hx (by omega)
  have hbound := BitVec.toInt_lt (x := x)
  generalize Int.tdiv x.toInt d = q at *
  obtain ⟨n, rfl⟩ := Int.eq_ofNat_of_zero_le hnonneg
  have hn : n < 2147483648 := by omega
  have hcast : BitVec.ofInt 32 (n : Int) = BitVec.ofNat 32 n := BitVec.ofInt_natCast ..
  simp only [before, hcast, Bool.and_eq_false_iff, decide_eq_false_iff_not]
  have hval : (BitVec.ofNat 32 n).toNat = n := by simp; omega
  bv_omega

/-! ### The sighting -/

theorem State.runokLevel_eq_high {t : State} (hst : t.stc.station = .active) :
    t.runokLevel = .high ↔ t.htu.table = [] := by
  simp [State.runokLevel, hst]

theorem State.runokLevel_eq_low {t : State} (hst : t.stc.station = .active) :
    t.runokLevel = .low ↔ t.htu.table ≠ [] := by
  simp [State.runokLevel, hst]

/-- A flash is counted where RUNOK rises and falls within the event (R112, log 6). -/
theorem State.countFlash_of_active {t first high : State} (hfirst : first.stc.station = .active)
    (hhigh : high.stc.station = .active) (ht : t.stc.station = .active) : t.countFlash first high =
      if first.htu.table ≠ [] ∧ high.htu.table = [] ∧ t.htu.table ≠ [] then
        t.withHtu { t.htu with flashes := t.htu.flashes + 1 }
      else t := by
  unfold State.countFlash
  refine if_congr ?_ rfl rfl
  simp only [Bool.and_eq_true, decide_eq_true_eq, State.runokLevel_eq_low hfirst, State.runokLevel_eq_high hhigh,
    State.runokLevel_eq_low ht, and_assoc]

theorem State.sightFrame_countFlash (s t first high : State) (h : SightFrame s t) :
    SightFrame s (t.countFlash first high) := by
  unfold State.countFlash
  split
  · exact ⟨h.filtered, h.captures, h.numbering, h.station, h.slot⟩
  · exact h

@[simp] theorem State.lcu_countFlash (t first high : State) : (t.countFlash first high).lcu = t.lcu := by
  unfold State.countFlash; split <;> rfl

@[simp] theorem State.scu_countFlash (t first high : State) : (t.countFlash first high).scu = t.scu := by
  unfold State.countFlash; split <;> rfl

theorem State.sightFrame_releaseSightClaim (s : State) : SightFrame s s.releaseSightClaim := by
  cases h : s.holdsFor 3 .sight with
  | true =>
    rw [(State.releaseSightClaim_of_held h).frame]
    exact ⟨rfl, rfl, ⟨rfl, rfl, rfl, rfl, rfl⟩, ⟨rfl, rfl, rfl, rfl, rfl⟩, rfl⟩
  | false =>
    rw [State.releaseSightClaim_of_not_held h]
    exact (WebFrame.refl s).sightFrame

/-- The window an edge is taken for, closed as captured (R71). -/
def State.windowCaptured (s : State) (n : Fin 4) (w : Window) : State :=
  ((s.removeWindow n w).windowClosed w true).settleSpill

theorem State.windowCaptured_frame (s : State) (n : Fin 4) (w : Window) :
    WebFrame (s.removeWindow n w) (s.windowCaptured n w) := by
  have hkept := (webFrame_kept (s.removeWindow n w)).toKeptByMarks
  exact State.settleSpill_kept hkept (State.windowClosed_kept hkept (WebFrame.refl _) w true)

@[simp] theorem State.scu_windowClosed (s : State) (w : Window) (captured : Bool) :
    (s.windowClosed w captured).scu = s.scu := by
  unfold State.windowClosed
  split <;> simp

theorem State.scu_windowCaptured (s : State) (n : Fin 4) (w : Window) :
    (s.windowCaptured n w).scu = (s.removeWindow n w).scu := by
  simp [State.windowCaptured]

/-- The state of a successful sighting before its trim: no misses, and a SIGHT claim released (R72). -/
def State.sighted (closed : State) : State := (closed.withScu { closed.scu with misses := 0 }).releaseSightClaim

theorem State.captureWindow_of_within {n : Fin 4} {w : Window} (order : List MoveBlock)
    (h : (s.lcu.coord - w.centre).toInt.natAbs ≤ s.cfg.trimLimit) : s.captureWindow n w order =
      (
        let e := (s.lcu.coord - w.centre).toInt
        let v := (s.windowCaptured n w).sighted
        (((v.noticeMark .sighted w.mark (packTop n.val (ofSigned e))).trim (trimOf s.cfg.trimGain e) order).countFlash
          s v)) := if_pos h

theorem State.captureWindow_of_beyond {n : Fin 4} {w : Window} (order : List MoveBlock)
    (h : s.cfg.trimLimit < (s.lcu.coord - w.centre).toInt.natAbs) : s.captureWindow n w order =
      (s.windowCaptured n w).noticeMark .trimLimit w.mark
        (packTop n.val (ofSigned (clampError (s.lcu.coord - w.centre).toInt))) := if_neg (Nat.not_le.mpr h)

/-- An edge taken on a SIGHT sensor with windows open (R70). -/
theorem exec_sightEdge {n : Fin 4} {level held : Level} (order : List MoveBlock) {w : Window} (hl : s.live = true)
    (hst : s.stc.station = .active) (hdir : s.lcu.direction = .forward) (hheld : s.scu.filtered.get n = some held)
    (hedge : edgeNamed (s.cfg.sensors.get n).edge held level = true)
    (hfun : (s.cfg.sensors.get n).function = .sight) (hw : servedWindow (s.scu.windows.get n) = some w) :
    exec (.sensorEdge n level order) s = .next (((s.settled n level).capture n).captureWindow n w order).driven := by
  have hfun' : ((s.settled n level).cfg.sensors.get n).function = .sight := hfun
  have hw' : servedWindow (((s.settled n level).capture n).scu.windows.get n) = some w := hw
  rw [exec_sensorEdge n level order hl (State.configured_of_active hst), State.filterLevel_of_edge order hheld hedge,
    State.takeEdge_of_taken (s := s.settled n level) n order hst hdir, hfun']
  simp only [State.sightEdge, hw']

end Sys2Proof.Machine
end

section
/-! The statement about sightings (R70 to R75). -/

namespace Sys2Proof.Machine

/-- What a sighting within the trim limit does after the close of its window, from `base` before it. -/
structure TrimsTo (base closed v moved u : State) (n : Fin 4) (w : Window) (order : List MoveBlock)
    (coord : Coord) : Prop where
  held : closed.holdsFor 3 .sight = true → ReleasesSight (closed.withScu { closed.scu with misses := 0 }) v
  free : closed.holdsFor 3 .sight = false → v = closed.withScu { closed.scu with misses := 0 }
  moves : moved = ((v.noticeMark .sighted w.mark
    (packTop n.val (ofSigned (base.lcu.coord - w.centre).toInt))).withLcu { base.lcu with coord := coord }).movedFrom
      base.lcu.coord order
  result : u = if base.htu.table ≠ [] ∧ v.htu.table = [] ∧ moved.htu.table ≠ []
    then moved.withHtu { moved.htu with flashes := moved.htu.flashes + 1 } else moved
  frame : SightFrame closed u
  lcu : u.lcu = { base.lcu with coord := coord }
  misses : before base.lcu.coord coord = false → u.scu.misses = 0

theorem State.scu_sighted (closed : State) : closed.sighted.scu = { closed.scu with misses := 0 } := by
  unfold State.sighted State.releaseSightClaim
  split <;> simp

theorem State.lcu_sighted (closed : State) : closed.sighted.lcu = closed.lcu := by
  unfold State.sighted State.releaseSightClaim
  split <;> simp

theorem State.sightFrame_sighted (closed : State) : SightFrame closed closed.sighted := by
  have hmisses : SightFrame closed (closed.withScu { closed.scu with misses := 0 }) :=
    ⟨rfl, rfl, ⟨rfl, rfl, rfl, rfl, rfl⟩, ⟨rfl, rfl, rfl, rfl, rfl⟩, rfl⟩
  exact hmisses.trans (State.sightFrame_releaseSightClaim _)

/-- A sighting within the trim limit (R72). -/
theorem State.captureWindow_trims {base : State} {n : Fin 4} {w : Window} (order : List MoveBlock)
    (hst : base.stc.station = .active) (h : (base.lcu.coord - w.centre).toInt.natAbs ≤ base.cfg.trimLimit) :
    ∃ v moved, TrimsTo base (base.windowCaptured n w) v moved (base.captureWindow n w order) n w order
      (base.lcu.coord - BitVec.ofInt 32 (Int.tdiv (base.lcu.coord - w.centre).toInt
        (trimDivisor base.cfg.trimGain))) := by
  let closed := base.windowCaptured n w
  let v := closed.sighted
  let coord := base.lcu.coord -
    BitVec.ofInt 32 (Int.tdiv (base.lcu.coord - w.centre).toInt (trimDivisor base.cfg.trimGain))
  let noticed := v.noticeMark .sighted w.mark (packTop n.val (ofSigned (base.lcu.coord - w.centre).toInt))
  let moved := (noticed.withLcu { base.lcu with coord := coord }).movedFrom base.lcu.coord order
  have hclosed := base.windowCaptured_frame n w
  have hlcu : noticed.lcu = base.lcu := (State.lcu_sighted closed).trans hclosed.lcu
  have hmoved : WebFrame (noticed.withLcu { base.lcu with coord := coord }) moved := State.movedFrom_frame ..
  have htrim : noticed.trim (trimOf base.cfg.trimGain (base.lcu.coord - w.centre).toInt) order = moved := by
    rw [trimOf_eq, State.trim_eq, hlcu]
  have hcapture : base.captureWindow n w order = moved.countFlash base v := by
    rw [State.captureWindow_of_within order h]
    exact congrArg (fun t : State => t.countFlash base v) htrim
  have hframe : SightFrame closed moved := by
    refine (State.sightFrame_sighted closed).trans (SightFrame.trans ?_ hmoved.sightFrame)
    exact ⟨rfl, rfl, ⟨rfl, rfl, rfl, rfl, rfl⟩, ⟨rfl, rfl, rfl, rfl, rfl⟩, Lpt.slot_place ..⟩
  have hst' : closed.stc.station = .active := hclosed.stc.station.trans hst
  refine ⟨v, moved, ⟨fun hheld => State.releaseSightClaim_of_held hheld,
    fun hfree => State.releaseSightClaim_of_not_held hfree, rfl, ?_, ?_, ?_, fun hback => ?_⟩⟩
  · rw [hcapture]
    exact State.countFlash_of_active hst ((State.sightFrame_sighted closed).station.station.trans hst')
      (hframe.station.station.trans hst')
  · rw [hcapture]
    exact State.sightFrame_countFlash _ _ _ _ hframe
  · rw [hcapture, State.lcu_countFlash]
    exact hmoved.lcu
  · have hstay : moved = noticed.withLcu { base.lcu with coord := coord } :=
      State.movedFrom_of_not_before (s := noticed.withLcu { base.lcu with coord := coord }) order hback
    rw [hcapture, State.scu_countFlash, hstay]
    exact congrArg Scu.misses (State.scu_sighted closed)

theorem Lbi.accepts_congr {l m : Lbi} (h : l.mode = m.mode) : l.accepts = m.accepts := by
  simp [Lbi.accepts, h]

/-- A forward movement, block by block. -/
theorem State.movedFrom_blocks {t : State} {a b : Coord} {order : List MoveBlock} (hb : t.lcu.coord = b)
    (h : before a b = true) (hw : wellFormedOrder order = true) : t.movedFrom a order =
      order.foldl (fun u block => match block with
        | .mke => u.mkeMove a b
        | .scu => u.scuMove a b
        | .aou => u.aouMove a b
        | .rmu => u.rmuMove a b) t := by
  subst hb
  rw [State.movedFrom_of_before h hw]
  exact List.foldl_ext _ _ _ fun u block _ => by cases block <;> rfl

/-- Settles O24, by whether the capture error is within the trim limit. -/
theorem sightingTrimsTheCoordinate : Obligations.SightingTrimsTheCoordinate := by
  intro n level held order s xs ys w hl hst hdir hheld hedge hfun hwin hxs hys
  have hw : servedWindow (s.scu.windows.get n) = some w := hwin ▸ servedWindow_of_earliest hxs hys
  let base := (s.settled n level).capture n
  have hclosed := base.windowCaptured_frame n w
  have hst' : base.stc.station = .active := hst
  have hresult : SightFrame (base.removeWindow n w) (base.captureWindow n w order) := by
    by_cases hwithin : (base.lcu.coord - w.centre).toInt.natAbs ≤ base.cfg.trimLimit
    · obtain ⟨v, moved, htrims⟩ := State.captureWindow_trims order hst' hwithin
      exact hclosed.sightFrame.trans htrims.frame
    · rw [State.captureWindow_of_beyond order (Nat.lt_of_not_le hwithin)]
      exact hclosed.sightFrame.trans ⟨rfl, rfl, ⟨rfl, rfl, rfl, rfl, rfl⟩, ⟨rfl, rfl, rfl, rfl, rfl⟩, Lpt.slot_place ..⟩
  refine ⟨_, exec_sightEdge order hl hst hdir hheld hedge hfun hw, hresult.filtered, hresult.captures,
    hresult.numbering, hresult.station, hresult.slot, ?_⟩
  intro e gain coord value closed
  have hclosed_eq : base.windowCaptured n w = closed := by
    simp only [closed, ← hwin]
    rfl
  refine ⟨fun hwithin => ?_, fun hbeyond => ?_⟩
  · obtain ⟨v, moved, htrims⟩ := State.captureWindow_trims (base := base) order hst' hwithin
    rw [hclosed_eq] at htrims
    have hcoord : base.lcu.coord - BitVec.ofInt 32
        (Int.tdiv (base.lcu.coord - w.centre).toInt (trimDivisor base.cfg.trimGain)) = coord := rfl
    rw [hcoord] at htrims
    refine ⟨htrims.lcu, fun he => htrims.misses (not_before_trim _ ?_ he), ?_⟩
    · show 1 ≤ trimDivisor s.cfg.trimGain
      cases s.cfg.trimGain <;> decide
    · intro hit
      have hstation : hit.cfg.station = s.cfg.station :=
        congrArg Settings.station (hclosed_eq ▸ hclosed.stc.cfg : closed.cfg = (base.removeWindow n w).cfg)
      refine ⟨v, moved, ?_, fun hheld => ?_, ?_⟩
      · split
        case isTrue hheld => exact (htrims.held hheld).frame
        case isFalse hfree => exact htrims.free (Bool.eq_false_iff.mpr hfree)
      · obtain ⟨hframe, htable, hhtu, htail, hlbi, hrelease⟩ := htrims.held hheld
        refine ⟨fun r => hstation ▸ htable r, hhtu, ?_, hlbi, fun ha => hrelease ?_⟩
        · rw [htail]
          exact if_congr (by rw [← hstation]) rfl rfl
        · have hmode : closed.lbi.mode = s.lbi.mode := by
            have h := hclosed.lbi
            rw [hclosed_eq] at h
            rw [h]
            rfl
          exact (Lbi.accepts_congr hmode).trans ha
      · intro trimmed
        have hmoves : moved = trimmed.movedFrom s.lcu.coord order := htrims.moves
        refine ⟨fun hback => hmoves.trans (State.movedFrom_of_not_before order hback), fun hfor hord => ?_,
          htrims.result⟩
        exact hmoves.trans (State.movedFrom_blocks rfl hfor hord)
  · have hscu : closed.scu = (base.removeWindow n w).scu := hclosed_eq ▸ base.scu_windowCaptured n w
    have hcapture : base.captureWindow n w order =
        closed.noticeMark .trimLimit w.mark (value (max (-536870912) (min 536870911 e))) := by
      rw [State.captureWindow_of_beyond (s := base) order hbeyond, hclosed_eq]
      rfl
    have hlcu : closed.lcu = s.lcu := by
      have h := hclosed.lcu
      rw [hclosed_eq] at h
      exact h
    refine ⟨(congrArg State.lcu hcapture).trans hlcu, ?_, ?_, hcapture⟩
    · exact ((congrArg State.scu hcapture).trans hscu :) ▸ rfl
    · have hwindows : (base.captureWindow n w order).scu = (base.removeWindow n w).scu :=
        (congrArg State.scu hcapture).trans hscu
      show (base.captureWindow n w order).scu.windows.get n = _
      rw [hwindows, ← hwin]
      simp [State.removeWindow, State.setWindows, Four.get_set]
      rfl

end Sys2Proof.Machine
end

section
/-! MARK frames of the current or the previous epoch: the sequence of their numbers, and the BLIND marks of a gap
(R22 to R25). -/

namespace Sys2Proof.Machine

variable {s t : State}

/-! ### The counter of gaps -/

/-- The lifetime counter of gaps. -/
def State.gapCount (s : State) : Nat := s.stc.counters.gaps

namespace GapCount

theorem enter (s : State) (r : RollSet) (e : RollEntry) : (s.enter r e).1.gapCount = s.gapCount := by
  unfold State.enter State.dropEntry
  split
  · rfl
  · simp only
    split <;> rfl

theorem recordEntry (s : State) (x : RecordHandoff) : (s.recordEntry x).gapCount = s.gapCount := by
  unfold State.recordEntry
  split
  · rfl
  · split
    · split <;> exact enter ..
    · exact enter ..

theorem lateAction (s : State) (r : MarkRecord) (ia : Nat × Action) : (s.lateAction r ia).gapCount = s.gapCount := by
  unfold State.lateAction State.fireHold State.fireRecord
  split
  · split
    · split <;> rfl
    · simp only
      split
      · exact recordEntry ..
      · rfl
    all_goals rfl
  · rfl

theorem examineRecord (s : State) (uid : Nat) : (s.examineRecord uid).gapCount = s.gapCount := by
  rw [State.gapCount, State.stc_examineRecord]
  rfl

theorem enterRecord (s : State) (r : MarkRecord) : (s.enterRecord r).gapCount = s.gapCount := by
  obtain hcount | hcount := Nat.eq_zero_or_pos (s.reachedActions r)
  · rw [State.enterRecord_ahead hcount]
    rfl
  · rw [State.enterRecord_late hcount, examineRecord]
    exact foldl_kept (fun t => t.gapCount = s.gapCount) (fun t ia h => (lateAction t r ia).trans h) _ rfl

theorem foldSpill (s : State) (ref : Option MarkRef) (q : Coord) (x : Nat) :
    (s.foldSpill ref q x).gapCount = s.gapCount := by
  unfold State.foldSpill
  simp only
  split <;> rfl

theorem admitMark (s : State) (o : MarkOffer) : (s.admitMark o).1.gapCount = s.gapCount := by
  unfold State.admitMark
  split
  · rfl
  · split
    · exact foldSpill ..
    · exact enterRecord ..

theorem settleLoop (n : Nat) (s : State) : (settleLoop n s).gapCount = s.gapCount := by
  induction n generalizing s with
  | zero => rfl
  | succ n ih =>
    unfold Machine.settleLoop
    split
    · rfl
    · split
      · rfl
      · rw [ih, State.enterSpill_eq, admitMark]
        rfl

theorem settleSpill (s : State) : s.settleSpill.gapCount = s.gapCount := by
  rw [State.settleSpill_eq, settleLoop]

theorem offerPlain (s : State) (o : MarkOffer) : (s.offerPlain o).1.gapCount = s.gapCount :=
  (settleSpill _).trans (admitMark ..)

theorem offerMark (s : State) (o : MarkOffer) : (s.offerMark o).1.gapCount = s.gapCount := by
  unfold State.offerMark
  split
  · rfl
  · split
    · exact offerPlain ..
    · split
      · exact offerPlain ..
      · split
        · rfl
        · exact offerPlain ..

end GapCount

/-! ### The BLIND marks of a gap -/

/-- A BLIND mark offered needs no identity check, and leaves no spill entry owed. -/
theorem State.offerMark_blind_of_settled (h : s.Settled) (position : Coord) (extent : Nat) (spill : Bool) :
    (s.offerMark (s.blindOffer position extent spill)).1 = (s.offerPlain (s.blindOffer position extent spill)).1 := by
  by_cases hroom : s.mke.queue.length < 64
  · exact State.offerMark_blind h hroom position extent spill
  · by_cases he : tableEntries s.cfg (s.blindOffer position extent spill).kind = []
    · rw [State.offerMark_of_empty he]
      simp [State.offerPlain, State.admitMark, he, State.settleSpill_of_settled h]
    · rw [State.offerMark_of_full he (Nat.le_of_not_lt hroom)]
      simp [State.offerPlain, State.admitMark, he, Nat.le_of_not_lt hroom]

/-- The BLIND marks of a chain of intervals (R25). -/
def State.coverChain (s : State) (chain : List (Coord × Nat)) : State :=
  chain.foldl (fun t qx => (t.offerPlain (t.blindOffer qx.1 qx.2 false)).1) s

/-- The same chain, offered as marks with the lanes of the settings at its start. -/
theorem State.coverChain_eq (c : Settings) (chain : List (Coord × Nat)) (hc : s.cfg = c) (h : s.Settled) :
    s.coverChain chain = chain.foldl (fun t qx => (t.offerMark ⟨0, none, 7, qx.1, allLanes c.laneCount, qx.2, false,
      false, false⟩).1) s := by
  unfold State.coverChain
  induction chain generalizing s with
  | nil => rfl
  | cons qx chain ih =>
    have hoffer : (s.offerMark ⟨0, none, 7, qx.1, allLanes c.laneCount, qx.2, false, false, false⟩).1 =
        (s.offerPlain (s.blindOffer qx.1 qx.2 false)).1 := hc ▸ State.offerMark_blind_of_settled h qx.1 qx.2 false
    have hkept := (webFrame_kept s).toKeptByMarks
    have hframe : WebFrame s (s.offerPlain (s.blindOffer qx.1 qx.2 false)).1 :=
      State.offerPlain_kept hkept (WebFrame.refl s) _ fun _ => Mke.fresh_blind _ _ rfl
    rw [List.foldl_cons, List.foldl_cons, hoffer]
    exact ih (hframe.stc.cfg.trans hc) (State.offerPlain_settled ..)

/-- The parts, of `n`, of a span that are covered: the first, and each that the span reaches past (R25). -/
def coveredParts (n span : Nat) : List Nat := (List.range n).filter (fun i => i = 0 || 65535 * i < span)

/-- The interval of one part. -/
def partOf (start : Coord) (span i : Nat) : Coord × Nat :=
  (start + BitVec.ofNat 32 (65535 * i), min 65535 (span - 65535 * i))

theorem coveredParts_of_le {n span : Nat} (h : span ≤ 65535) : coveredParts (n + 1) span = [0] := by
  have hrest : ((List.range n).map Nat.succ).filter (fun i => i = 0 || 65535 * i < span) = [] := by
    simp only [List.filter_eq_nil_iff, List.mem_map]
    rintro _ ⟨i, -, rfl⟩
    simp
    omega
  rw [coveredParts, List.range_succ_eq_map, List.filter_cons_of_pos (by simp), hrest]

theorem coveredParts_of_lt {n span : Nat} (h : 65535 < span) :
    coveredParts (n + 2) span = 0 :: (coveredParts (n + 1) (span - 65535)).map Nat.succ := by
  rw [coveredParts, List.range_succ_eq_map, List.filter_cons_of_pos (by simp), List.filter_map, coveredParts]
  congr 2
  refine List.filter_congr fun i _ => ?_
  rw [Bool.eq_iff_iff]
  simp
  omega

theorem add_offset_add_offset (start : Coord) (m n : Nat) :
    start + BitVec.ofNat 32 m + BitVec.ofNat 32 n = start + BitVec.ofNat 32 (m + n) := by
  rw [BitVec.add_assoc, ← BitVec.ofNat_add]

theorem partOf_succ (start : Coord) (span i : Nat) :
    partOf start span (i + 1) = partOf (start + 65535#32) (span - 65535) i := by
  have hadd : start + 65535#32 + BitVec.ofNat 32 (65535 * i) = start + BitVec.ofNat 32 (65535 * (i + 1)) := by
    have hsum : 65535 + 65535 * i = 65535 * (i + 1) := by omega
    rw [add_offset_add_offset, hsum]
  have hleft : span - 65535 - 65535 * i = span - 65535 * (i + 1) := by omega
  simp only [partOf, hadd, hleft]

theorem gapChain_of_le (n : Nat) (start : Coord) {span : Nat} (h : span ≤ 65535) :
    gapChain (n + 1) start span = ([(start, span)], none) := if_pos h

theorem gapChain_of_lt (n : Nat) (start : Coord) {span : Nat} (h : 65535 < span) : gapChain (n + 1) start span =
    ((start, 65535) :: (gapChain n (start + 65535#32) (span - 65535)).1,
      (gapChain n (start + 65535#32) (span - 65535)).2) := if_neg (Nat.not_le.mpr h)

/-- The chain of a gap: its parts, and what they leave (R25). -/
theorem gapChain_succ (n : Nat) (start : Coord) (span : Nat) : gapChain (n + 1) start span =
    ((coveredParts (n + 1) span).map (partOf start span),
      if 65535 * (n + 1) < span then
        some (start + BitVec.ofNat 32 (65535 * (n + 1)), span - 65535 * (n + 1)) else none) := by
  induction n generalizing start span with
  | zero =>
    by_cases h : span ≤ 65535
    · simp [gapChain, h, coveredParts, partOf, Nat.not_lt.mpr h]
    · simp [gapChain, h, coveredParts, partOf, Nat.lt_of_not_le h, Nat.le_of_lt (Nat.lt_of_not_le h)]
  | succ n ih =>
    by_cases h : span ≤ 65535
    · have hall : ¬ 65535 * (n + 1 + 1) < span := by omega
      simp [gapChain_of_le _ _ h, coveredParts_of_le h, partOf, h, hall]
    · have hlt : 65535 < span := Nat.lt_of_not_le h
      have hleft : (65535 * (n + 1) < span - 65535) = (65535 * (n + 1 + 1) < span) := by
        rw [eq_iff_iff]
        omega
      have hspan : span - 65535 - 65535 * (n + 1) = span - 65535 * (n + 1 + 1) := by omega
      have hstart : start + 65535#32 + BitVec.ofNat 32 (65535 * (n + 1)) =
          start + BitVec.ofNat 32 (65535 * (n + 1 + 1)) := by
        have hsum : 65535 + 65535 * (n + 1) = 65535 * (n + 1 + 1) := by omega
        rw [add_offset_add_offset, hsum]
      have hfirst : partOf start span 0 = (start, 65535) := by simp [partOf]; omega
      have hunfold : gapChain (n + 1 + 1) start span =
          ((start, 65535) :: (gapChain (n + 1) (start + 65535#32) (span - 65535)).1,
            (gapChain (n + 1) (start + 65535#32) (span - 65535)).2) :=
        gapChain_of_lt _ _ hlt
      have hparts : (coveredParts (n + 1) (span - 65535)).map (partOf (start + 65535#32) (span - 65535)) =
          (coveredParts (n + 1) (span - 65535)).map (partOf start span ∘ Nat.succ) :=
        List.map_congr_left fun i _ => (partOf_succ start span i).symm
      rw [hunfold, ih, coveredParts_of_lt hlt, List.map_cons, List.map_map, hfirst, hparts]
      simp only [hleft, hspan, hstart]

/-! ### The sequence of mark numbers -/

theorem classify_of_base {e : OriginEntry} {m : MarkFrame} (h : e = .unknown ∨ m.fresh = true) :
    classify e m = .base := by
  cases e with
  | unknown => rfl
  | tracking last held => simp [classify, h.resolve_left (by simp)]

theorem classify_of_tracking {m : MarkFrame} {last : MarkNo} (held : Coord) (h : m.fresh = false) :
    ((m.number - last).toNat = 1 → classify (.tracking last held) m = .inSequence) ∧
    (2 ≤ (m.number - last).toNat → (m.number - last).toNat ≤ 32767 →
      classify (.tracking last held) m = .gap ((m.number - last).toNat - 1)) ∧
    ((m.number - last).toNat = 0 ∨ 32768 ≤ (m.number - last).toNat → classify (.tracking last held) m = .old) := by
  unfold classify
  simp only [h, Bool.false_eq_true, if_false]
  generalize (m.number - last).toNat = d
  refine ⟨fun h1 => by simp [h1], fun h2 h3 => ?_, fun h4 => ?_⟩
  · rw [if_neg (by omega), if_pos (by simp [within, h2, h3])]
  · rw [if_neg (by omega), if_neg (by simp [within]; omega)]

theorem State.compareMark_of_current (n : NoticeOrder) (o : Nat) {m : MarkFrame} {δ : BitVec 32}
    (h : s.epochDiff m.epoch = 0 ∨ (s.epochDiff m.epoch = 255 ∧ s.lcu.deltaPrev = some δ)) : s.compareMark n o m =
      s.currentMark o m (if s.epochDiff m.epoch = 0 then m.position else m.position + δ)
        (decide (s.epochDiff m.epoch = 255)) := by
  obtain h | ⟨h, hδ⟩ := h
  · simp [State.compareMark, h]
  · simp [State.compareMark, h, hδ]

theorem WebFrame.setOrigin (h : WebFrame s t) (o : Nat) (e : OriginEntry) :
    WebFrame (s.setOrigin o e) (t.setOrigin o e) :=
  ⟨h.lcu, ⟨congrArg (modifyAt (fun _ => e) (o - 1)) h.mke.origins, h.mke.nextNumber, h.mke.freshPending,
    h.mke.lastPosted, h.mke.freeUsed⟩, h.filtered, h.captures, h.lastHeard, h.tail, h.nextSet, h.lbi, h.stc, h.slot,
    h.pins, h.pending⟩

end Sys2Proof.Machine
end

section
/-! The statement about MARK frames of the current or the previous epoch (R22 to R25). -/

namespace Sys2Proof.Machine

variable {s : State}

/-- The marks of a gap: at most four BLIND marks, and what they leave folded (R25). -/
def State.gapCovered (s : State) (lanes : Lanes) (start : Coord) (span : Nat) : State :=
  let covered := (coveredParts 4 span).foldl (fun t i => (t.offerMark ⟨0, none, 7, start + BitVec.ofNat 32 (65535 * i),
    lanes, min 65535 (span - 65535 * i), false, false, false⟩).1) s
  if 262140 < span then covered.foldSpill none (start + 262140#32) (span - 262140) else covered

theorem State.reportGap_eq (h : s.Settled) (o : Nat) (n : MarkNo) (missing : Nat) (l p : Coord) :
    s.reportGap o n missing l p =
      ((s.gapCovered (allLanes s.cfg.laneCount) (earlier l p) (later l p - earlier l p).toNat).notice .gap (some o)
        (some n) (packHalves missing (min (later l p - earlier l p).toNat 65535))).count .gaps := by
  generalize hspan : (later l p - earlier l p).toNat = span
  have hchain : gapChain 4 (earlier l p) span = ((coveredParts 4 span).map (partOf (earlier l p) span),
      if 262140 < span then some (earlier l p + 262140#32, span - 262140) else none) :=
    gapChain_succ 3 (earlier l p) span
  have hcover := State.coverChain_eq s.cfg ((coveredParts 4 span).map (partOf (earlier l p) span)) rfl h
  rw [List.foldl_map] at hcover
  unfold State.reportGap State.gapCovered
  simp only [hspan, hchain]
  rw [State.coverChain] at hcover
  rw [hcover]
  by_cases hbig : 262140 < span
  · simp only [hbig, if_true]
    rfl
  · simp only [hbig, if_false]
    rfl

theorem State.gapCovered_frame (s : State) (lanes : Lanes) (start : Coord) (span : Nat) :
    WebFrame s (s.gapCovered lanes start span) := by
  have hkept := (webFrame_kept s).toKeptByMarks
  have hcovered := foldl_kept (WebFrame s) (fun t i ht => State.offerMark_kept hkept ht
    ⟨0, none, 7, start + BitVec.ofNat 32 (65535 * i), lanes, min 65535 (span - 65535 * i), false, false, false⟩)
    (coveredParts 4 span) (WebFrame.refl s)
  unfold State.gapCovered
  simp only
  split
  · exact State.foldSpill_kept hkept hcovered ..
  · exact hcovered

theorem State.gapCount_gapCovered (s : State) (lanes : Lanes) (start : Coord) (span : Nat) :
    (s.gapCovered lanes start span).gapCount = s.gapCount := by
  have hcovered := foldl_kept (fun t => t.gapCount = s.gapCount) (fun t i ht => (GapCount.offerMark t
    ⟨0, none, 7, start + BitVec.ofNat 32 (65535 * i), lanes, min 65535 (span - 65535 * i), false, false, false⟩).trans
      ht) (coveredParts 4 span) (s := s) rfl
  unfold State.gapCovered
  simp only
  split
  · exact (GapCount.foldSpill ..).trans hcovered
  · exact hcovered

/-- A mark taken from `t`, a frame of `base`: the origin table takes it, and then it is offered. -/
theorem State.entered_spec {base t : State} (hframe : WebFrame base t) (o : Nat) (e : OriginEntry) (m : MarkOffer) :
    WebFrame (base.setOrigin o e) ((t.setOrigin o e).offerMark m).1 ∧
      ((t.setOrigin o e).offerMark m).1.gapCount = t.gapCount :=
  ⟨State.offerMark_kept (webFrame_kept _).toKeptByMarks (hframe.setOrigin o e) m,
    (GapCount.offerMark (t.setOrigin o e) m)⟩

/-- A MARK frame with good content and of the current or the previous epoch, taken in ACTIVE. -/
theorem exec_markFrame_of_current {e : InEntry} (n : NoticeOrder) {δ : BitVec 32} (hnext : FrameNext s .mark e)
    (hst : s.stc.station = .active) (hlow : 1 ≤ e.frame.origin) (hhigh : e.frame.origin ≤ 24)
    (hkind : (parseMark e.frame.payload).kind ≠ 7) (hlanes : (parseMark e.frame.payload).lanes ≠ 0)
    (hd : ((parseMark e.frame.payload).epoch - s.lcu.epoch).toNat = 0 ∨
      (((parseMark e.frame.payload).epoch - s.lcu.epoch).toNat = 255 ∧ s.lcu.deltaPrev = some δ)) :
    exec (.markFrame n) s = .next (s.dequeued.currentMark e.frame.origin (parseMark e.frame.payload)
      (if ((parseMark e.frame.payload).epoch - s.lcu.epoch).toNat = 0 then (parseMark e.frame.payload).position
        else (parseMark e.frame.payload).position + δ)
      (decide (((parseMark e.frame.payload).epoch - s.lcu.epoch).toNat = 255))).driven := by
  have hpass : markFault e.frame.origin (parseMark e.frame.payload) = none := by
    simp [markFault, validStation, hlow, hhigh, blindKind, hkind]
    exact hlanes
  rw [exec_markFrame n hnext, State.takeMark_of_passes (s := s.dequeued) n hst hpass,
    State.compareMark_of_current (s := s.dequeued) n e.frame.origin hd]
  rfl

/-- Settles O31, by how the number of the mark stands to the origin table. -/
theorem currentMarkMovesTheOriginTable : Obligations.CurrentMarkMovesTheOriginTable := by
  intro n s e δ hnext hst m d p origin offered entered taken hlow hhigh hkind hlanes hd
  have hexec : exec (.markFrame n) s = .next (s.dequeued.currentMark origin m p (decide (d = 255))).driven :=
    exec_markFrame_of_current n hnext hst hlow hhigh hkind hlanes hd
  have htaken : ∀ (t : State) (position : Coord), WebFrame s.dequeued t →
      s.dequeued.currentMark origin m p (decide (d = 255)) = entered t position →
      taken (entered t position) position t.gapCount := fun t position hframe heq => by
    obtain ⟨hweb, hgap⟩ := State.entered_spec hframe origin (.tracking m.number position) offered
    exact ⟨heq ▸ hexec, hweb, hgap⟩
  refine ⟨fun hbase => ?_, fun last held hheld hfresh => ?_⟩
  · refine htaken s.dequeued p (WebFrame.refl _) ?_
    have hclass := classify_of_base (e := s.dequeued.mke.entryOf origin) hbase
    simp only [State.currentMark, hclass]
    rfl
  · intro number position
    have hheld' : s.dequeued.mke.entryOf origin = .tracking last held := hheld
    obtain ⟨hsequence, hgap, hold⟩ := classify_of_tracking (m := m) (last := last) held hfresh
    refine ⟨fun h1 => ?_, fun h2 h3 hsettled => ?_, fun h4 => ?_⟩
    · refine htaken s.dequeued position (WebFrame.refl _) ?_
      simp only [State.currentMark, hheld', hsequence h1]
      rfl
    · intro start span blind covered folded noticed gaps
      have hreport : s.dequeued.reportGap origin m.number (number - 1) held p = noticed.count .gaps :=
        State.reportGap_eq (s := s.dequeued) hsettled origin m.number (number - 1) held p
      have hframe : WebFrame s.dequeued noticed :=
        State.notice_kept (webFrame_kept _).toKeptByMarks
          (s.dequeued.gapCovered_frame (allLanes s.dequeued.cfg.laneCount) start span) ..
      have hcount : noticed.stc.counters.gaps = s.stc.counters.gaps :=
        s.dequeued.gapCount_gapCovered (allLanes s.dequeued.cfg.laneCount) start span
      have hcounted : noticed.count .gaps =
          noticed.withStc { noticed.stc with counters := { noticed.stc.counters with gaps := gaps } } := by
        simp only [gaps, ← hcount]
        rfl
      rw [← hcounted]
      have hgaps : (noticed.count .gaps).gapCount = gaps := congrArg (holdInc 65535) hcount
      rw [← hgaps]
      refine htaken (noticed.count .gaps) position ((webFrame_kept _).count _ _ hframe) ?_
      simp only [State.currentMark, hheld', hgap h2 h3, OriginEntry.position, ← hreport]
      rfl
    · rw [hexec]
      simp only [State.currentMark, hheld', hold h4]

end Sys2Proof.Machine
end

section
/-! Bits, bytes and numbers, most significant first; and the transactions on the local port (R142, R177 to R180,
R189). -/

namespace Sys2Proof.Machine

/-! ### Numbers in a base -/

/-- Digits read after others are lower digits. -/
theorem foldl_digits {α : Type} (base : Nat) (digit : α → Nat) (xs : List α) (a : Nat) :
    xs.foldl (fun acc x => base * acc + digit x) a =
      a * base ^ xs.length + xs.foldl (fun acc x => base * acc + digit x) 0 := by
  induction xs generalizing a with
  | nil => simp
  | cons x xs ih =>
    rw [List.foldl_cons, List.foldl_cons, ih (base * a + digit x), ih (base * 0 + digit x), List.length_cons]
    ring

theorem numberOf_append (xs ys : List Bool) : numberOf (xs ++ ys) = numberOf xs * 2 ^ ys.length + numberOf ys := by
  rw [numberOf, List.foldl_append, foldl_digits]
  rfl

theorem numberOf_cons (b : Bool) (xs : List Bool) : numberOf (b :: xs) = b.toNat * 2 ^ xs.length + numberOf xs := by
  have h := numberOf_append [b] xs
  simpa [numberOf] using h

theorem natBE_append (xs ys : List Byte) : natBE (xs ++ ys) = natBE xs * 256 ^ ys.length + natBE ys := by
  rw [natBE, List.foldl_append, foldl_digits]
  rfl

theorem natBE_cons (b : Byte) (xs : List Byte) : natBE (b :: xs) = b.toNat * 256 ^ xs.length + natBE xs := by
  have h := natBE_append [b] xs
  simpa [natBE] using h

/-! ### Bits -/

theorem bitsOf_eq_map (w n : Nat) : bitsOf w n = (List.range w).map fun i => n.testBit (w - 1 - i) := by
  induction w with
  | zero => rfl
  | succ w ih =>
    rw [bitsOf, ih, List.range_succ_eq_map, List.map_cons, List.map_map]
    have hindex : ∀ i, n.testBit (w + 1 - 1 - (i + 1)) = n.testBit (w - 1 - i) := fun i => by
      congr 1
      omega
    simp only [Nat.add_sub_cancel, Nat.sub_zero, List.cons.injEq, true_and]
    exact List.map_congr_left fun i _ => (hindex i).symm

/-- The low bits of a number spell it. -/
theorem numberOf_bitsOf (w n : Nat) : numberOf (bitsOf w n) = n % 2 ^ w := by
  induction w with
  | zero => simp [bitsOf, numberOf, Nat.mod_one]
  | succ w ih =>
    have hbit : (n.testBit w).toNat = n / 2 ^ w % 2 := Nat.toNat_testBit ..
    rw [bitsOf, numberOf_cons, ih, length_bitsOf, hbit, Nat.pow_succ, Nat.mod_mul, Nat.mul_comm, Nat.add_comm]

theorem numberOf_bitsOf_of_lt {w n : Nat} (h : n < 2 ^ w) : numberOf (bitsOf w n) = n := by
  rw [numberOf_bitsOf, Nat.mod_eq_of_lt h]

/-- The bits of bytes, most significant first. -/
def bitsOfBytes (bytes : List Byte) : List Bool := bytes.flatMap fun b => bitsOf 8 b.toNat

theorem bitsOfBytes_cons (b : Byte) (bytes : List Byte) :
    bitsOfBytes (b :: bytes) = bitsOf 8 b.toNat ++ bitsOfBytes bytes := rfl

@[simp] theorem length_bitsOfBytes (bytes : List Byte) : (bitsOfBytes bytes).length = 8 * bytes.length := by
  induction bytes with
  | nil => rfl
  | cons b bytes ih => rw [bitsOfBytes_cons, List.length_append, length_bitsOf, ih, List.length_cons]; omega

theorem bitsOf_byte (b : Byte) : bitsOf 8 b.toNat = (List.range 8).map fun i => b.getMsbD i := by
  rw [bitsOf_eq_map]
  refine List.map_congr_left fun i hi => ?_
  have hi := List.mem_range.mp hi
  simp [BitVec.getMsbD, hi, BitVec.testBit_toNat]

/-- Each bit of bytes stands in its byte. -/
theorem getElem?_bitsOfBytes (bytes : List Byte) (i : Nat) :
    (bitsOfBytes bytes)[i]? = (bytes[i / 8]?).map fun b => b.getMsbD (i % 8) := by
  induction bytes generalizing i with
  | nil => simp [bitsOfBytes]
  | cons b bytes ih =>
    rw [bitsOfBytes_cons]
    by_cases hi : i < 8
    · rw [List.getElem?_append_left (by simpa using hi), Nat.div_eq_of_lt hi, Nat.mod_eq_of_lt hi, bitsOf_byte]
      simp [hi]
    · have hdiv : i / 8 = (i - 8) / 8 + 1 := by omega
      have hmod : i % 8 = (i - 8) % 8 := by omega
      rw [List.getElem?_append_right (by simpa using Nat.le_of_not_lt hi), length_bitsOf, ih, hdiv, hmod,
        List.getElem?_cons_succ]

/-- Bytes read from their own bits; further bits give the further bytes. -/
theorem bytesOf_bitsOfBytes (bytes : List Byte) (n : Nat) (extra : List Bool) :
    bytesOf (bytes.length + n) (bitsOfBytes bytes ++ extra) = bytes ++ bytesOf n extra := by
  induction bytes with
  | nil => simp [bitsOfBytes]
  | cons b bytes ih =>
    have hcount : (b :: bytes).length + n = (bytes.length + n) + 1 := by rw [List.length_cons]; omega
    have hbits : bitsOfBytes (b :: bytes) ++ extra = bitsOf 8 b.toNat ++ (bitsOfBytes bytes ++ extra) := by
      rw [bitsOfBytes_cons, List.append_assoc]
    have htake : (bitsOf 8 b.toNat ++ (bitsOfBytes bytes ++ extra)).take 8 = bitsOf 8 b.toNat :=
      List.take_left' (length_bitsOf ..)
    have hdrop : (bitsOf 8 b.toNat ++ (bitsOfBytes bytes ++ extra)).drop 8 = bitsOfBytes bytes ++ extra :=
      List.drop_left' (length_bitsOf ..)
    have hbyte : BitVec.ofNat 8 (numberOf (bitsOf 8 b.toNat)) = b := by
      rw [numberOf_bitsOf_of_lt b.isLt, BitVec.ofNat_toNat, BitVec.setWidth_eq]
    rw [hcount, hbits, bytesOf, htake, hdrop, ih, hbyte, List.cons_append]

/-! ### Bytes of numbers -/

theorem natBE_bytesBE (count n : Nat) : natBE (bytesBE count n) = n % 256 ^ count := by
  induction count with
  | zero => simp [bytesBE, natBE, Nat.mod_one]
  | succ c ih =>
    have hshift : n >>> (8 * c) = n / 256 ^ c := by rw [Nat.shiftRight_eq_div_pow, Nat.pow_mul]
    have hbyte : (BitVec.ofNat 8 (n / 256 ^ c)).toNat = n / 256 ^ c % 256 := BitVec.toNat_ofNat ..
    rw [bytesBE, natBE_cons, ih, length_bytesBE, hshift, hbyte, Nat.pow_succ, Nat.mod_mul, Nat.mul_comm, Nat.add_comm]

/-- A number in the bytes of a frame (R189). -/
theorem field_bytesBE {count n : Nat} (pre rest : List Byte) (h : n < 256 ^ count) :
    field (pre ++ bytesBE count n ++ rest) pre.length count = n := by
  rw [field, List.append_assoc, List.drop_left, List.take_left' (length_bytesBE ..), natBE_bytesBE,
    Nat.mod_eq_of_lt h]

/-! ### Transactions -/


/-- The bytes clocked in, where whole bytes are followed by further bits. -/
theorem clockedBytes_bitsOfBytes (bytes : List Byte) (extra : List Bool) :
    clockedBytes (bitsOfBytes bytes ++ extra) = bytes ++ bytesOf (extra.length / 8) extra := by
  have hcount : (bitsOfBytes bytes ++ extra).length / 8 = bytes.length + extra.length / 8 := by
    rw [List.length_append, length_bitsOfBytes]
    omega
  rw [clockedBytes, hcount, bytesOf_bitsOfBytes]

/-- LDO carries the bytes of the frame and then FFh (R177). -/
theorem getElem?_shiftOut (frame : List Byte) {n i : Nat} (h : i < n) :
    (shiftOut frame n)[i]? = some ((frame.getD (i / 8) 0xFF).getMsbD (i % 8)) := by
  have hbits : shiftOut frame n = (bitsOfBytes frame ++ List.replicate (n - 8 * frame.length) true).take n := rfl
  rw [hbits, List.getElem?_take_of_lt h]
  by_cases hi : i < 8 * frame.length
  · have hbyte : i / 8 < frame.length := by omega
    rw [List.getElem?_append_left (by simpa using hi), getElem?_bitsOfBytes, List.getD_eq_getElem?_getD,
      List.getElem?_eq_getElem hbyte]
    rfl
  · have hbyte : frame.length ≤ i / 8 := by omega
    have hones : ∀ j : Fin 8, (0xFF#8).getMsbD j.val = true := by decide
    rw [List.getElem?_append_right (by simpa using Nat.le_of_not_lt hi), length_bitsOfBytes,
      List.getElem?_replicate_of_lt (by omega), List.getD_eq_default _ _ hbyte]
    exact congrArg some (hones ⟨i % 8, Nat.mod_lt _ (by decide)⟩).symm

/-! ### Request frames -/

theorem foldl_add_checkByte (bytes : List Byte) : (bytes ++ [checkByte bytes]).foldl (· + ·) 0 = 0 := by
  rw [List.foldl_append, List.foldl_cons, List.foldl_nil, checkByte]
  simp

/-- A good request frame is taken, whatever follows it (R177, R179). -/
theorem examine_requestFrame (code : Byte) {p : List Byte} (hp : p.length ≤ 512) (rest : List Byte) :
    examine (requestFrame code p ++ rest) = some (code, p) := by
  have hframe : requestFrame code p ++ rest =
      [code] ++ bytesBE 2 p.length ++ (p ++ checkByte (code :: (bytesBE 2 p.length ++ p)) :: rest) := by
    simp [requestFrame]
  have hlen : field (requestFrame code p ++ rest) 1 2 = p.length := by
    rw [hframe]
    exact field_bytesBE (count := 2) [code] _ (by omega)
  have hlength : (requestFrame code p).length = 4 + p.length := by
    simp [requestFrame]
    omega
  have htake : (requestFrame code p ++ rest).take (4 + p.length) = requestFrame code p := List.take_left' hlength
  have hdrop : (requestFrame code p ++ rest).drop 3 = p ++ checkByte (code :: (bytesBE 2 p.length ++ p)) :: rest := by
    rw [hframe]
    exact List.drop_left' (by simp)
  have hpayload : (p ++ checkByte (code :: (bytesBE 2 p.length ++ p)) :: rest).take p.length = p := List.take_left
  have hsum : (requestFrame code p).foldl (· + ·) 0 = 0 := foldl_add_checkByte _
  have hhead : (requestFrame code p ++ rest).headD 0 = code := rfl
  unfold examine
  simp only [hlen]
  rw [if_neg (by rw [List.length_append]; omega), if_neg (by omega), if_neg (by rw [List.length_append]; omega),
    htake, if_pos hsum, hdrop, hpayload, hhead]

/-- A frame too short, too long, cut short or with a bad sum is not taken (R179). -/
theorem examine_of_bad {bytes : List Byte} (h : bytes.length < 3 ∨ 512 < field bytes 1 2 ∨
    bytes.length < 4 + field bytes 1 2 ∨ (bytes.take (4 + field bytes 1 2)).foldl (· + ·) 0 ≠ 0) :
    examine bytes = none := by
  unfold examine
  simp only
  split
  · rfl
  · split
    · rfl
    · split
      · rfl
      · exact if_neg (by tauto)

theorem Slot.afterTransaction_of_taken (r : Response) {bytes : List Byte} {code : Byte} {p : List Byte}
    (hne : bytes ≠ []) (h : examine bytes = some (code, p)) :
    Slot.afterTransaction (.ready r) bytes = .preparing code p := by
  cases bytes with
  | nil => exact absurd rfl hne
  | cons b bytes => simp only [Slot.afterTransaction, h]

theorem Slot.afterTransaction_of_bad (r : Response) {b : Byte} {bytes : List Byte} (h : examine (b :: bytes) = none) :
    Slot.afterTransaction (.ready r) (b :: bytes) = .ready ⟨b, .badframe, []⟩ := by
  simp only [Slot.afterTransaction, h]

theorem exec_localTransaction {s : State} (bits : List Bool) (hl : s.live = true) :
    exec (.localTransaction bits) s = match s.pins.lcs with
      | .high => .next (s.transact bits).driven
      | .low => .next (s.withPins { s.pins with lcs := .high }).driven := by
  have hexec : exec (.localTransaction bits) s = execLocalTransaction bits s := rfl
  rw [hexec, execLocalTransaction, if_pos hl]
  cases s.pins.lcs <;> rfl

/-- Settles O51: the bits shifted out, and the bytes clocked in by whether they are a good frame. -/
theorem transactionsMoveTheSlot : Obligations.TransactionsMoveTheSlot := by
  intro s hl
  refine ⟨fun hlow bits => by rw [exec_localTransaction bits hl, hlow], fun hhigh bits => ⟨s.transact bits, ?_, rfl,
    length_shiftOut .., ?_, fun code p hslot => ?_, ?_⟩⟩
  · rw [exec_localTransaction bits hl, hhigh]
  · intro out i hi
    have hout : s.lpt.slot.shiftedOut = out := by
      simp only [out]
      cases s.lpt.slot <;> rfl
    rw [← hout]
    exact getElem?_shiftOut _ hi
  · simp only [State.transact, State.lpt_withLpt, hslot, Slot.afterTransaction]
  · intro bitsOf' r hslot
    have hbits : ∀ bytes, bitsOf' bytes = bitsOfBytes bytes := fun bytes =>
      List.flatMap_congr fun b _ => (bitsOf_byte b).symm
    have hafter : (s.transact bits).lpt.slot = Slot.afterTransaction (.ready r) (clockedBytes bits) := by
      simp only [State.transact, State.lpt_withLpt, hslot]
    rw [hafter]
    refine ⟨fun hshort => ?_, fun code p extra hp heq => ?_, fun bytes extra code rest heq hextra hcons hbad => ?_⟩
    · have hnone : clockedBytes bits = [] :=
        List.length_eq_zero_iff.mp (by rw [length_clockedBytes]; omega)
      rw [hnone]
      rfl
    · rw [heq, hbits, clockedBytes_bitsOfBytes]
      exact Slot.afterTransaction_of_taken r (by simp [requestFrame]) (examine_requestFrame code hp _)
    · have hnone : bytesOf (extra.length / 8) extra = [] :=
        List.length_eq_zero_iff.mp (by rw [length_bytesOf]; omega)
      rw [heq, hbits, clockedBytes_bitsOfBytes, hnone, List.append_nil, hcons]
      exact Slot.afterTransaction_of_bad r (examine_of_bad (hcons ▸ hbad))

end Sys2Proof.Machine
end

section
/-! Line frame payloads: what is written, and what is read of it (R189). -/

namespace Sys2Proof.Machine

/-! ### Bytes -/

theorem toNat_byteOf {n : Nat} (h : n < 256) : (byteOf n).toNat = n := by
  rw [byteOf, BitVec.toNat_ofNat, Nat.mod_eq_of_lt h]

theorem bytesBE_four (n : Nat) : bytesBE 4 n = [BitVec.ofNat 8 (n / 16777216), BitVec.ofNat 8 (n / 65536),
    BitVec.ofNat 8 (n / 256), BitVec.ofNat 8 n] := by
  simp [bytesBE, Nat.shiftRight_eq_div_pow]

/-- The first number of a payload. -/
theorem field_zero_bytesBE {count n : Nat} (rest : List Byte) (h : n < 256 ^ count) :
    field (bytesBE count n ++ rest) 0 count = n := field_bytesBE [] rest h

/-- A number further on, after `pre`. -/
theorem field_after {count n i : Nat} {pre rest : List Byte} (hi : pre.length = i) (h : n < 256 ^ count) :
    field (pre ++ (bytesBE count n ++ rest)) i count = n := by
  rw [← hi, ← List.append_assoc]
  exact field_bytesBE pre rest h

/-- The last number of a payload. -/
theorem field_last {count n i : Nat} {pre : List Byte} (hi : pre.length = i) (h : n < 256 ^ count) :
    field (pre ++ bytesBE count n) i count = n := by
  have hrest := field_after (rest := []) hi h
  rwa [List.append_nil] at hrest

theorem ofNat_toNat {w : Nat} (x : BitVec w) : BitVec.ofNat w x.toNat = x := by simp

/-! ### Reading back -/

theorem parseZero_zeroPayload (z : Coord) {path : Nat} (h : path < 16777216) :
    parseZero (zeroPayload z path) = (z, path) := by
  rw [parseZero, zeroPayload, field_zero_bytesBE _ z.isLt, field_last (by simp) h, ofNat_toNat]

theorem parseCutover_cutoverPayload (k : Coord) {n : Nat} (h : n < 65536) :
    parseCutover (cutoverPayload k n) = (k, n) := by
  rw [parseCutover, cutoverPayload, field_zero_bytesBE _ k.isLt, field_last (by simp) h, ofNat_toNat]

/-- What a claim byte says, its bit 6 the flag of a mark reference. -/
theorem claimByte_read {n : Nat} (hn : n < 16) (r : Reason) (flag : Bool) :
    (byteOf (claimByte n r + bitAt 6 flag)).toNat % 16 = n ∧
    reasonOf ((byteOf (claimByte n r + bitAt 6 flag)).toNat / 16) = r ∧
    (byteOf (claimByte n r + bitAt 6 flag)).toNat.testBit 6 = flag := by
  have hcode : r.code < 4 := by cases r <;> decide
  have hflag : bitAt 6 flag = 64 * flag.toNat := by cases flag <;> rfl
  have hbool := flag.toNat_lt
  have hvalue : (byteOf (claimByte n r + bitAt 6 flag)).toNat = n + 16 * r.code + 64 * flag.toNat := by
    rw [toNat_byteOf (by rw [claimByte, hflag]; omega), claimByte, hflag, Nat.mod_eq_of_lt hn]
  rw [hvalue]
  refine ⟨by omega, ?_, ?_⟩
  · have hdiv : (n + 16 * r.code + 64 * flag.toNat) / 16 = r.code + 4 * flag.toNat := by omega
    rw [hdiv]
    cases r <;> cases flag <;> rfl
  · have hdiv : (n + 16 * r.code + 64 * flag.toNat) / 2 ^ 6 = flag.toNat := by omega
    rw [Nat.testBit_eq_decide_div_mod_eq, hdiv]
    cases flag <;> rfl

theorem parseHold_none {n : Nat} (hn : n < 16) (r : Reason) : parseHold (holdPayload n r none) = (n, r, none) := by
  obtain ⟨hclaim, hreason, hflag⟩ := claimByte_read hn r false
  have hbyte : byteAt (holdPayload n r none) 0 = (byteOf (claimByte n r + bitAt 6 false)).toNat := rfl
  rw [parseHold, hbyte, hclaim, hreason, hflag]
  rfl

theorem parseHold_some {n : Nat} (hn : n < 16) (r : Reason) {o : Nat} (k : MarkNo) (ho : o < 256) :
    parseHold (holdPayload n r (some (o, k))) = (n, r, some (o, k)) := by
  obtain ⟨hclaim, hreason, hflag⟩ := claimByte_read hn r true
  have hbyte : byteAt (holdPayload n r (some (o, k))) 0 = (byteOf (claimByte n r + bitAt 6 true)).toNat := rfl
  have horigin : byteAt (holdPayload n r (some (o, k))) 1 = o := toNat_byteOf ho
  have hnumber : field (holdPayload n r (some (o, k))) 2 2 = k.toNat :=
    field_last (pre := [byteOf (claimByte n r + 64), byteOf o]) rfl k.isLt
  rw [parseHold, hbyte, hclaim, hreason, hflag, horigin, hnumber, ofNat_toNat]
  rfl

theorem parseClaims_map (a b : Byte) {claims : List (Nat × Reason)} (h : ∀ c ∈ claims, c.1 < 16) :
    parseClaims (a :: b :: claims.map fun c => byteOf (c.1 + 16 * c.2.code)) = claims := by
  have hread : ∀ c ∈ claims, ((byteOf (c.1 + 16 * c.2.code)).toNat % 16,
      reasonOf ((byteOf (c.1 + 16 * c.2.code)).toNat / 16)) = c := fun c hc => by
    have hbyte : claimByte c.1 c.2 = c.1 + 16 * c.2.code := by rw [claimByte, Nat.mod_eq_of_lt (h c hc)]
    obtain ⟨hclaim, hreason, -⟩ := claimByte_read (h c hc) c.2 false
    rw [bitAt, if_neg (by decide), Nat.add_zero, hbyte] at hclaim hreason
    rw [hclaim, hreason]
  rw [parseClaims, List.drop_succ_cons, List.drop_succ_cons, List.drop_zero, List.map_map]
  exact (List.map_congr_left hread).trans (List.map_id' _)

theorem kindByte_read (kind : Fin 8) (fresh : Bool) : (byteOf (kind.val + bitAt 7 fresh)).toNat =
    kind.val + 128 * fresh.toNat ∧ Fin.ofNat 8 (kind.val + 128 * fresh.toNat) = kind ∧
      (kind.val + 128 * fresh.toNat).testBit 7 = fresh := by
  revert kind fresh
  decide

theorem parseMark_markPayload {m : MarkFrame} (h : m.extent < 65536) : parseMark (markPayload m) = m := by
  obtain ⟨hbyte, hkind, hfresh⟩ := kindByte_read m.kind m.fresh
  have hpayload : markPayload m = bytesBE 2 m.number.toNat ++ ([m.epoch, byteOf (m.kind.val + bitAt 7 m.fresh)] ++
      (bytesBE 4 m.position.toNat ++ (bytesBE 2 m.lanes.toNat ++ bytesBE 2 m.extent))) := by
    simp [markPayload]
  have hnumber : field (markPayload m) 0 2 = m.number.toNat := by
    rw [hpayload]
    exact field_zero_bytesBE _ m.number.isLt
  have hposition : field (markPayload m) 4 4 = m.position.toNat := by
    rw [hpayload, ← List.append_assoc]
    exact field_after (by simp) m.position.isLt
  have hlanes : field (markPayload m) 8 2 = m.lanes.toNat := by
    rw [hpayload, ← List.append_assoc, ← List.append_assoc]
    exact field_after (by simp) m.lanes.isLt
  have hextent : field (markPayload m) 10 2 = m.extent := by
    rw [markPayload]
    exact field_last (by simp) h
  have hepoch : (markPayload m).getD 2 0 = m.epoch := rfl
  have hat : byteAt (markPayload m) 3 = m.kind.val + 128 * m.fresh.toNat := hbyte
  simp only [parseMark, hnumber, hposition, hlanes, hextent, hepoch, hat, hkind, hfresh, ofNat_toNat]

theorem code_reasonOf (n : Nat) : (reasonOf n).code = n % 4 := by
  have hlt := Nat.mod_lt n (show 4 > 0 by decide)
  unfold reasonOf
  generalize n % 4 = k at *
  match k, hlt with
  | 0, _ | 1, _ | 2, _ | 3, _ => rfl

/-- Settles O30, frame by frame. -/
theorem lineFramePayloads : Obligations.LineFramePayloads := by
  refine ⟨fun count n pre rest h => ⟨length_bytesBE .., field_bytesBE pre rest h⟩,
    fun n => ⟨bytesBE_four n, rfl, rfl⟩, fun s => ?_, fun p => ⟨rfl, rfl, rfl, rfl, code_reasonOf _, rfl⟩⟩
  intro byte code
  have hcode : code = Reason.code := funext fun r => by cases r <;> rfl
  clear_value code
  subst hcode
  refine ⟨fun z path => ⟨rfl, parseZero_zeroPayload z⟩, fun n r => ⟨rfl, fun o k => rfl, fun hn =>
    ⟨parseHold_none hn r, fun o k ho => parseHold_some hn r k ho⟩⟩, fun n => rfl, fun t => rfl,
    fun k n => ⟨rfl, parseCutover_cutoverPayload k⟩, fun m => ⟨rfl, parseMark_markPayload⟩, rfl,
    fun a b claims h => parseClaims_map a b h, rfl⟩

end Sys2Proof.Machine
end

section
/-! The line bit by bit: what a sender stuffs, and how a receiver follows it (R142, R143, R152). -/

namespace Sys2Proof.Machine

/-! ### The sender -/

/-- Where a sender stands: the bit before, sent `run` times in a row. -/
structure Cursor where
  last : Bool
  run : Nat

namespace Cursor

/-- The cursor after one field bit, its stuff bit sent before it where one is due (R143). -/
def next (c : Cursor) (b : Bool) : Cursor :=
  ⟨b, if c.run = 5 then (if b == !c.last then 2 else 1) else if b == c.last then c.run + 1 else 1⟩

/-- The stuff bit that is due. -/
def due (c : Cursor) : List Bool := if c.run = 5 then [!c.last] else []

/-- Field bits as sent, each after the stuff bit due before it. -/
def send : Cursor → List Bool → List Bool
  | _, [] => []
  | c, b :: bs => c.due ++ b :: (c.next b).send bs

/-- The cursor after field bits. -/
def after (c : Cursor) (bs : List Bool) : Cursor := bs.foldl next c

/-- The cursor after the start bit. -/
def start : Cursor := ⟨false, 1⟩

theorem send_append (c : Cursor) (xs ys : List Bool) : c.send (xs ++ ys) = c.send xs ++ (c.after xs).send ys := by
  induction xs generalizing c with
  | nil => rfl
  | cons x xs ih => simp only [List.cons_append, send, ih, List.append_assoc]; rfl

theorem after_append (c : Cursor) (xs ys : List Bool) : c.after (xs ++ ys) = (c.after xs).after ys :=
  List.foldl_append

/-- Stuffing sends the field bits, and a stuff bit that is due at the end. -/
theorem stuff_eq (c : Cursor) (bs : List Bool) : stuff c.last c.run bs = c.send bs ++ (c.after bs).due := by
  induction bs generalizing c with
  | nil => rfl
  | cons b bs ih =>
    have hrest := ih (c.next b)
    unfold stuff
    by_cases hrun : c.run = 5
    · have hnext : (c.next b).run = if b == !c.last then 2 else 1 := if_pos hrun
      rw [if_pos hrun, send, due, if_pos hrun, ← hnext]
      exact congrArg (fun zs => (!c.last) :: b :: zs) hrest
    · have hnext : (c.next b).run = if b == c.last then c.run + 1 else 1 := if_neg hrun
      rw [if_neg hrun, send, due, if_neg hrun, ← hnext]
      exact congrArg (b :: ·) hrest

/-! ### The run of equal bits -/

/-- The bits sent, latest first, end in exactly the run the cursor counts. -/
structure Follows (c : Cursor) (sent : List Bool) : Prop where
  split : ∃ q, sent = List.replicate c.run c.last ++ q ∧ q.head? ≠ some c.last
  pos : 1 ≤ c.run
  le : c.run ≤ 5

theorem follows_start : start.Follows [false] := ⟨⟨[], rfl, by simp⟩, by decide, by decide⟩

theorem Follows.head {c : Cursor} {sent : List Bool} (h : c.Follows sent) : sent.head? = some c.last := by
  obtain ⟨q, hq, -⟩ := h.split
  obtain ⟨n, hn⟩ := Nat.exists_eq_succ_of_ne_zero (Nat.ne_of_gt h.pos)
  rw [hq, hn]
  rfl

theorem Follows.next {c : Cursor} {sent : List Bool} (h : c.Follows sent) (b : Bool) :
    (c.next b).Follows (b :: (c.due.reverse ++ sent)) := by
  have hhead := h.head
  obtain ⟨q, hq, hne⟩ := h.split
  have hpos := h.pos
  have hle := h.le
  by_cases hrun : c.run = 5
  · have hdue : c.due = [!c.last] := if_pos hrun
    by_cases hb : b = !c.last
    · have hnext : c.next b = ⟨b, 2⟩ := by simp [Cursor.next, hrun, hb]
      rw [hnext, hdue]
      refine ⟨⟨sent, by simp [hb, List.replicate_succ], ?_⟩, (show 1 ≤ 2 by decide), (show 2 ≤ 5 by decide)⟩
      simp [hhead, hb]
    · have hnext : c.next b = ⟨b, 1⟩ := by simp [Cursor.next, hrun, hb]
      rw [hnext, hdue]
      refine ⟨⟨(!c.last) :: sent, rfl, fun hq => ?_⟩, Nat.le_refl 1, (show 1 ≤ 5 by decide)⟩
      exact hb (Option.some.inj hq).symm
  · have hdue : c.due = [] := if_neg hrun
    rw [hdue]
    by_cases hb : b = c.last
    · have hnext : c.next b = ⟨c.last, c.run + 1⟩ := by simp [Cursor.next, hrun, hb]
      rw [hnext]
      exact ⟨⟨q, by simp [hb, hq, List.replicate_succ], hne⟩, Nat.succ_pos _, by simp only; omega⟩
    · have hnext : c.next b = ⟨b, 1⟩ := by simp [Cursor.next, hrun, hb]
      rw [hnext]
      refine ⟨⟨sent, rfl, fun hq => ?_⟩, Nat.le_refl 1, (show 1 ≤ 5 by decide)⟩
      exact hb (Option.some.inj (hhead.symm.trans hq)).symm

theorem Follows.after {c : Cursor} {sent : List Bool} (h : c.Follows sent) (bs : List Bool) :
    (c.after bs).Follows ((c.send bs).reverse ++ sent) := by
  induction bs generalizing c sent with
  | nil => exact h
  | cons b bs ih =>
    have hrest := ih (h.next b)
    have hsent : (c.send (b :: bs)).reverse ++ sent =
        ((c.next b).send bs).reverse ++ b :: (c.due.reverse ++ sent) := by
      simp [send]
    rw [hsent]
    exact hrest

/-- The bits sent end in five equal bits exactly where a stuff bit is due. -/
theorem Follows.take_eq {c : Cursor} {sent : List Bool} (h : c.Follows sent) (b : Bool) :
    sent.take 5 = List.replicate 5 b ↔ c.run = 5 ∧ c.last = b := by
  obtain ⟨q, hq, hne⟩ := h.split
  have hpos := h.pos
  have hle := h.le
  constructor
  · intro htake
    have hget : ∀ i, i < 5 → sent[i]? = some b := fun i hi => by
      rw [← List.getElem?_take_of_lt hi, htake, List.getElem?_replicate_of_lt hi]
    have hlast : c.last = b := by
      have hzero := hget 0 (by decide)
      rw [hq, List.getElem?_append_left (by simp; omega), List.getElem?_replicate_of_lt hpos] at hzero
      exact Option.some.inj hzero
    refine ⟨?_, hlast⟩
    by_contra hrun
    have hnext := hget c.run (by omega)
    rw [hq, List.getElem?_append_right (by simp), List.length_replicate, Nat.sub_self,
      ← List.head?_eq_getElem?] at hnext
    exact hne (hlast ▸ hnext)
  · rintro ⟨hrun, rfl⟩
    rw [hq, hrun, List.take_left' (by simp)]

end Cursor

/-! ### The receiver -/

/-- More is to be read after these field bits. -/
def Unfinished (bits : List Bool) : Prop := afterField bits = .inl (.fields bits.reverse)

/-- What a receiver makes of what an unstuffed bit leads to. -/
def readOn (result : ReadPhase ⊕ Nat) (c : Cursor) (rest : List Bool) : ReadResult :=
  match result with
  | .inr cause => .fault cause
  | .inl phase => readBits phase c.last c.run rest

/-- One field bit is read, after the stuff bit due before it (R143, R152). -/
theorem readBits_field (rd : List Bool) (c : Cursor) (b : Bool) (rest : List Bool) :
    readBits (.fields rd) c.last c.run (c.due ++ b :: rest) =
      readOn (afterField (rd.reverse ++ [b])) (c.next b) rest := by
  have hone : ∀ last run, run ≠ 5 → readBits (.fields rd) last run (b :: rest) =
      readOn (afterField (rd.reverse ++ [b])) ⟨b, if b == last then run + 1 else 1⟩ rest := fun last run hrun => by
    rw [readBits, if_neg hrun]
    unfold readOn
    cases afterField (rd.reverse ++ [b]) <;> rfl
  by_cases hrun : c.run = 5
  · have hdue : c.due = [!c.last] := if_pos hrun
    have hnext : c.next b = ⟨b, if b == !c.last then 1 + 1 else 1⟩ := by simp [Cursor.next, hrun]
    rw [hdue, hnext, ← hone (!c.last) 1 (by decide), List.singleton_append, readBits, if_pos hrun, if_neg (by simp)]
  · have hdue : c.due = [] := if_neg hrun
    have hnext : c.next b = ⟨b, if b == c.last then c.run + 1 else 1⟩ := by simp [Cursor.next, hrun]
    rw [hdue, hnext, List.nil_append, hone c.last c.run hrun]

/-- Field bits are read while more is to be read. -/
theorem readBits_send (rd xs : List Bool) (c : Cursor) (rest : List Bool)
    (h : ∀ k, 1 ≤ k → k ≤ xs.length → Unfinished (rd ++ xs.take k)) :
    readBits (.fields rd.reverse) c.last c.run (c.send xs ++ rest) =
      readBits (.fields (rd ++ xs).reverse) (c.after xs).last (c.after xs).run rest := by
  induction xs generalizing rd c with
  | nil => rw [List.append_nil]; rfl
  | cons b xs ih =>
    have hfirst : Unfinished (rd ++ [b]) := h 1 (Nat.le_refl _) (Nat.succ_pos _)
    have hrest := ih (rd ++ [b]) (c.next b) fun k hk hle => by
      have := h (k + 1) (Nat.succ_pos _) (Nat.succ_le_succ hle)
      rwa [List.take_succ_cons, ← List.singleton_append, ← List.append_assoc] at this
    rw [Cursor.send, List.append_assoc, List.cons_append, readBits_field, List.reverse_reverse, hfirst]
    rw [List.append_assoc, List.singleton_append] at hrest
    exact hrest

/-- A frame read up to a field bit, whatever its result there. -/
theorem readFrame_send (fs : List Bool) (x : Bool) (rest : List Bool)
    (h : ∀ k, 1 ≤ k → k ≤ fs.length → Unfinished (fs.take k)) :
    readFrame (false :: (Cursor.start.send (fs ++ [x]) ++ rest)) =
      readOn (afterField (fs ++ [x])) (Cursor.start.after (fs ++ [x])) rest := by
  have hread := readBits_send [] fs Cursor.start
    ((Cursor.start.after fs).due ++ x :: rest) (by simpa using h)
  have hsend : Cursor.start.send (fs ++ [x]) ++ rest =
      Cursor.start.send fs ++ ((Cursor.start.after fs).due ++ x :: rest) := by
    rw [Cursor.send_append]
    simp [Cursor.send]
  rw [hsend]
  refine hread.trans ?_
  rw [readBits_field, List.reverse_reverse, Cursor.after_append]
  rfl

/-- Bits read with no result give none when cut short. -/
theorem readBits_of_append {phase : ReadPhase} {last : Bool} {run : Nat} {xs ys : List Bool}
    (h : readBits phase last run (xs ++ ys) = .incomplete) : readBits phase last run xs = .incomplete := by
  induction xs generalizing phase last run with
  | nil => cases phase <;> rfl
  | cons x xs ih =>
    cases phase with
    | fields rd =>
      simp only [List.cons_append, readBits] at h ⊢
      split
      · next hrun =>
        rw [if_pos hrun] at h
        split
        · next hx => simp [hx] at h
        · next hx => exact ih (by simpa [hx] using h)
      · next hrun =>
        rw [if_neg hrun] at h
        cases hresult : afterField (rd.reverse ++ [x]) with
        | inr cause => simp [hresult] at h
        | inl phase => exact ih (by simpa [hresult] using h)
    | checked rd =>
      simp only [List.cons_append, readBits] at h ⊢
      split
      · next hrun =>
        rw [if_pos hrun] at h
        split
        · next hx => simp [hx] at h
        · next hx => exact ih (by simpa [hx] using h)
      · next hrun =>
        rw [if_neg hrun] at h
        split
        · next hx => exact ih (by simpa [hx] using h)
        · next hx => simp [hx] at h
    | marker rd left =>
      simp only [List.cons_append, readBits] at h ⊢
      split
      · next hx =>
        rw [if_pos hx] at h
        split
        · next hleft => simpa [hleft] using h
        · next hleft => exact ih (by simpa [hleft] using h)
      · next hx => simp [hx] at h

/-! ### The end marker -/

theorem readBits_marker_short (rd : List Bool) (last : Bool) (run : Nat) {i left : Nat} (h : i < left)
    (rest : List Bool) : readBits (.marker rd left) last run (List.replicate i true) = .incomplete ∧
      readBits (.marker rd left) last run (List.replicate i true ++ false :: rest) = .fault 4 := by
  induction i generalizing left last run with
  | zero => exact ⟨rfl, rfl⟩
  | succ i ih =>
    obtain ⟨hincomplete, hfault⟩ := ih true 1 (left := left - 1) (by omega)
    have hleft : ¬ left ≤ 1 := by omega
    simp only [List.replicate_succ, List.cons_append, readBits, if_true, hleft, if_false]
    exact ⟨hincomplete, hfault⟩

theorem readBits_marker_whole (rd : List Bool) (last : Bool) (run left : Nat) (rest : List Bool) :
    readBits (.marker rd (left + 1)) last run (List.replicate (left + 1) true ++ rest) = finishRead rd.reverse := by
  induction left generalizing last run with
  | zero => rfl
  | succ left ih =>
    rw [List.replicate_succ, List.cons_append, readBits, if_pos rfl, if_neg (by omega)]
    exact ih true 1

/-- After the check a stuff bit that is due stands before the end marker (log 17). -/
theorem readBits_checked (rd : List Bool) (c : Cursor) (rest : List Bool) :
    readBits (.checked rd) c.last c.run (c.due ++ rest) = readBits (.marker rd 7) true 1 rest := by
  by_cases hrun : c.run = 5
  · have hdue : c.due = [!c.last] := if_pos hrun
    rw [hdue, List.singleton_append, readBits, if_pos hrun, if_neg (by simp)]
    cases rest <;> rfl
  · have hdue : c.due = [] := if_neg hrun
    rw [hdue, List.nil_append]
    cases rest with
    | nil => rfl
    | cons b rest =>
      rw [readBits, if_neg hrun]
      cases b <;> rfl

end Sys2Proof.Machine
end

section
/-! What a receiver makes of the bits it reads: no result yet, the six causes, and the frames (R144, R152). -/

namespace Sys2Proof.Machine

variable {fields : List Bool}

/-! ### The check and the header -/

theorem crc_eq_foldl (bits : List Bool) : crc bits = bits.foldl
    (fun (reg : BitVec 16) bit => if reg.msb = bit then reg <<< 1 else (reg <<< 1) ^^^ 0x5937#16) 0xFFFF#16 := by
  have hstep : crcStep = fun (reg : BitVec 16) bit =>
      if reg.msb = bit then reg <<< 1 else (reg <<< 1) ^^^ 0x5937#16 := by
    funext reg bit
    by_cases h : reg.msb = bit <;> simp [crcStep, h]
  rw [crc, hstep]

theorem headerLength_take {k : Nat} (h : 14 ≤ k) : headerLength (fields.take k) = headerLength fields := by
  rw [headerLength, headerLength, List.drop_take, List.take_take, Nat.min_eq_left (by omega)]

/-- The field bits up to here end no frame: the length field is not done or is at most 12, and the last check bit is
still to come (R142, R152). -/
def GoesOn (fields : List Bool) (k : Nat) : Prop :=
  k < 14 ∨ (headerLength fields ≤ 12 ∧ k < 30 + 8 * headerLength fields)

theorem unfinished_take {k : Nat} (hk : k ≤ fields.length) (h : GoesOn fields k) : Unfinished (fields.take k) := by
  have hlength : (fields.take k).length = k := List.length_take_of_le hk
  unfold Unfinished afterField
  rw [hlength]
  by_cases hshort : k < 14
  · simp [Nat.ne_of_lt hshort, Nat.not_le.mpr hshort]
  · rw [headerLength_take (Nat.le_of_not_lt hshort)]
    obtain ⟨hlen, hend⟩ := h.resolve_left hshort
    simp [Nat.not_lt.mpr hlen, Nat.ne_of_lt hend]

theorem GoesOn.of_le {j k : Nat} (h : GoesOn fields k) (hj : j ≤ k) : GoesOn fields j := by
  unfold GoesOn at *
  omega

/-! ### The bits of the fields -/

/-- Fields read with a result at their last bit. -/
theorem readFrame_fields (hne : fields ≠ []) (h : GoesOn fields (fields.length - 1)) (rest : List Bool) :
    readFrame (false :: (Cursor.start.send fields ++ rest)) =
      readOn (afterField fields) (Cursor.start.after fields) rest := by
  obtain ⟨fs, x, rfl⟩ := (List.eq_nil_or_concat fields).resolve_left hne
  simp only [List.concat_eq_append, List.length_append, List.length_singleton, Nat.add_sub_cancel] at h ⊢
  refine readFrame_send fs x rest fun k _ hk => ?_
  have htake : (fs ++ [x]).take k = fs.take k := List.take_append_of_le_length hk
  rw [← htake]
  exact unfinished_take (by simp; omega) (h.of_le hk)

/-- Fields read with no result. -/
theorem readFrame_goesOn (h : GoesOn fields fields.length) (rest : List Bool) :
    readFrame (false :: (Cursor.start.send fields ++ rest)) =
      readBits (.fields fields.reverse) (Cursor.start.after fields).last (Cursor.start.after fields).run rest :=
  readBits_send [] fields Cursor.start rest fun _ _ hk => unfinished_take hk (h.of_le hk)

/-- The bits of fields as sent, with a stuff bit that is due at the end. -/
theorem sent_eq (fields : List Bool) :
    stuff false 1 fields = Cursor.start.send fields ++ (Cursor.start.after fields).due :=
  Cursor.stuff_eq Cursor.start fields

theorem readBits_due (rd : List Bool) (c : Cursor) : readBits (.fields rd) c.last c.run c.due = .incomplete := by
  by_cases hrun : c.run = 5
  · have hdue : c.due = [!c.last] := if_pos hrun
    rw [hdue, readBits, if_pos hrun, if_neg (by simp)]
    rfl
  · have hdue : c.due = [] := if_neg hrun
    rw [hdue]
    rfl

theorem readFrame_take {bits : List Bool} (h : readFrame (false :: bits) = .incomplete) (n : Nat) :
    readFrame ((false :: bits).take n) = .incomplete := by
  cases n with
  | zero => rfl
  | succ n =>
    rw [List.take_succ_cons]
    have hbits : readBits (.fields []) false 1 (bits.take n ++ bits.drop n) = .incomplete := by
      rw [List.take_append_drop]
      exact h
    exact readBits_of_append hbits

/-! ### Wrong stuff bits -/

/-- The bits of the first part of a frame, a stuff bit that is due among them, do not end in five equal bits. -/
theorem sent_not_five (fs pre : List Bool) (b : Bool) : false :: stuff false 1 fs ≠ pre ++ List.replicate 5 b := by
  intro heq
  have hfollows := Cursor.follows_start.after fs
  have hreverse := congrArg List.reverse heq
  rw [sent_eq, List.reverse_append, List.reverse_replicate, ← List.cons_append, List.reverse_append,
    List.reverse_cons] at hreverse
  have htake : ((Cursor.start.after fs).due.reverse ++ ((Cursor.start.send fs).reverse ++ [false])).take 5 =
      List.replicate 5 b := by
    rw [hreverse]
    exact List.take_left' (List.length_replicate ..)
  by_cases hrun : (Cursor.start.after fs).run = 5
  · have hdue : (Cursor.start.after fs).due = [!(Cursor.start.after fs).last] := if_pos hrun
    have hhead := hfollows.head
    obtain ⟨l, ls, hls⟩ : ∃ l ls, (Cursor.start.send fs).reverse ++ [false] = l :: ls :=
      List.exists_cons_of_ne_nil (by simp)
    rw [hls] at hhead htake
    obtain rfl := Option.some.inj hhead
    rw [hdue] at htake
    simp only [List.reverse_singleton, List.singleton_append, List.take_succ_cons, List.replicate_succ,
      List.cons.injEq] at htake
    have hflip := htake.1.trans htake.2.1.symm
    simp at hflip
  · have hdue : (Cursor.start.after fs).due = [] := if_neg hrun
    rw [hdue] at htake
    exact hrun ((hfollows.take_eq b).mp htake).1

/-- A frame's bits that end in five equal bits and another end in a stuff bit. -/
theorem due_of_sent {pre : List Bool} {b : Bool}
    (h : false :: stuff false 1 fields = pre ++ List.replicate 5 b ++ [!b]) :
    (Cursor.start.after fields).run = 5 ∧ (Cursor.start.after fields).last = b ∧
      pre ++ List.replicate 5 b = false :: Cursor.start.send fields := by
  by_cases hrun : (Cursor.start.after fields).run = 5
  · have hdue : (Cursor.start.after fields).due = [!(Cursor.start.after fields).last] := if_pos hrun
    rw [sent_eq, hdue, ← List.cons_append] at h
    obtain ⟨hbits, hlast⟩ := List.append_inj' h rfl
    exact ⟨hrun, by simpa using hlast, hbits.symm⟩
  · have hdue : (Cursor.start.after fields).due = [] := if_neg hrun
    exfalso
    obtain rfl | ⟨fs, x, rfl⟩ := List.eq_nil_or_concat fields
    · have hlength := congrArg List.length h
      simp [stuff] at hlength
    · have hsent : false :: stuff false 1 (fs.concat x) = (false :: stuff false 1 fs) ++ [x] := by
        rw [sent_eq, hdue, sent_eq, List.concat_eq_append, Cursor.send_append]
        simp [Cursor.send]
      rw [hsent] at h
      exact sent_not_five fs pre b (List.append_inj' h rfl).1

theorem readBits_wrong_stuff (rd rest : List Bool) {c : Cursor} (hrun : c.run = 5) :
    readBits (.fields rd) c.last c.run (c.last :: rest) = .fault 1 ∧
      readBits (.checked rd) c.last c.run (c.last :: rest) = .fault 1 := by
  constructor <;> rw [readBits, if_pos hrun, if_pos (by simp)]

/-! ### Whole frames -/

/-- All field bits of a frame, to its last check bit (R142). -/
structure WholeFields (fields : List Bool) : Prop where
  header : 14 ≤ fields.length
  short : headerLength fields ≤ 12
  length : fields.length = 30 + 8 * headerLength fields

/-- The check read is the check computed (R144). -/
def CheckRight (fields : List Bool) : Prop :=
  numberOf (fields.drop (fields.length - 16)) = (crc (fields.take (fields.length - 16))).toNat

namespace WholeFields

theorem ne_nil (h : WholeFields fields) : fields ≠ [] := by
  rintro rfl
  exact absurd h.header (by decide)

theorem goesOn (h : WholeFields fields) : GoesOn fields (fields.length - 1) := by
  obtain ⟨hheader, hshort, hlength⟩ := h
  exact .inr ⟨hshort, by omega⟩

theorem afterField_eq (h : WholeFields fields) : afterField fields =
    if numberOf (fields.drop (fields.length - 16)) = (crc (fields.take (fields.length - 16))).toNat then
      .inl (.checked fields.reverse)
    else .inr 3 := by
  obtain ⟨hheader, hshort, hlength⟩ := h
  unfold afterField
  rw [if_neg (by simp; omega), if_pos (by simpa [hheader] using hlength)]

theorem afterField_right (h : WholeFields fields) (hright : CheckRight fields) :
    afterField fields = .inl (.checked fields.reverse) := h.afterField_eq.trans (if_pos hright)

theorem afterField_wrong (h : WholeFields fields) (hright : ¬ CheckRight fields) : afterField fields = .inr 3 :=
  h.afterField_eq.trans (if_neg hright)

/-- With the check right, the end marker is read next (R152). -/
theorem readFrame_sent (h : WholeFields fields) (hright : CheckRight fields) (rest : List Bool) :
    readFrame (false :: stuff false 1 fields ++ rest) = readBits (.marker fields.reverse 7) true 1 rest := by
  rw [sent_eq, List.cons_append, List.append_assoc, readFrame_fields h.ne_nil h.goesOn,
    h.afterField_right hright]
  exact readBits_checked ..

end WholeFields

/-! ### Kinds -/

/-- The kinds of frames: class and kind code in one number, and the payload lengths (R142). -/
def frameKinds : List (Nat × FrameKind × List Nat) := [(1, .zero, [7]), (2, .hold, [4]), (3, .release, [1]),
  (4, .dismiss, [1]), (17, .cutover, [6]), (18, .mark, [12]), (19, .claims, [2, 3, 4, 5, 6]), (20, .census, [0])]

theorem kindOf_spec : ∀ (normal : Bool) (code : Fin 16),
    ((∀ x ∈ frameKinds, x.1 ≠ normal.toNat * 16 + code.val) → kindOf normal code.val = none) ∧
    (∀ x ∈ frameKinds, x.1 = normal.toNat * 16 + code.val → kindOf normal code.val = some x.2.1) := by
  decide

theorem lengthOk_spec : ∀ x ∈ frameKinds, ∀ len : Fin 16, x.2.1.lengthOk len.val = decide (len.val ∈ x.2.2) := by
  decide

theorem numberOf_lt (bits : List Bool) : numberOf bits < 2 ^ bits.length := by
  induction bits with
  | nil => decide
  | cons b bits ih =>
    have hb := b.toNat_lt
    have hmul : b.toNat * 2 ^ bits.length ≤ 1 * 2 ^ bits.length := Nat.mul_le_mul_right _ (by omega)
    rw [numberOf_cons, List.length_cons, Nat.pow_succ]
    omega

theorem numberOf_take_lt (bits : List Bool) (n : Nat) : numberOf (bits.take n) < 2 ^ n :=
  Nat.lt_of_lt_of_le (numberOf_lt _) (Nat.pow_le_pow_right (by decide) (List.length_take_le ..))

theorem bytesOf_eq_map (n : Nat) (bits : List Bool) : bytesOf n bits =
    (List.range n).map fun i => BitVec.ofNat 8 (numberOf ((bits.drop (8 * i)).take 8)) := by
  induction n generalizing bits with
  | zero => rfl
  | succ n ih =>
    rw [bytesOf, ih, List.range_succ_eq_map, List.map_cons, List.map_map]
    refine congrArg (_ :: ·) (List.map_congr_left fun i _ => ?_)
    rw [List.drop_drop, Function.comp_apply, Nat.mul_succ, Nat.add_comm]

theorem numberOf_take_one {bits : List Bool} (h : bits ≠ []) : numberOf (bits.take 1) = (bits.headD false).toNat := by
  cases bits with
  | nil => exact absurd rfl h
  | cons b bits => cases b <;> rfl

/-- At the last bit of the marker, an unknown kind (R152, cause 5). -/
theorem finishRead_of_unknown (h : ∀ x ∈ frameKinds, x.1 ≠
    (fields.headD false).toNat * 16 + numberOf ((fields.drop 1).take 4)) : finishRead fields = .fault 5 := by
  have hnone := (kindOf_spec (fields.headD false) ⟨_, numberOf_take_lt (fields.drop 1) 4⟩).1 h
  simp only [finishRead, hnone]

/-- At the last bit of the marker, a kind with its length (R152, cause 6). -/
theorem finishRead_of_kind {x : Nat × FrameKind × List Nat} (hx : x ∈ frameKinds)
    (h : x.1 = (fields.headD false).toNat * 16 + numberOf ((fields.drop 1).take 4)) : finishRead fields =
      if headerLength fields ∈ x.2.2 then
        .valid ⟨x.2.1, numberOf ((fields.drop 5).take 5), bytesOf (headerLength fields) (fields.drop 14)⟩
      else .fault 6 := by
  have hkind := (kindOf_spec (fields.headD false) ⟨_, numberOf_take_lt (fields.drop 1) 4⟩).2 x hx h
  have hlen := lengthOk_spec x hx ⟨_, numberOf_take_lt (fields.drop 10) 4⟩
  have hlen' : x.2.1.lengthOk (headerLength fields) = decide (headerLength fields ∈ x.2.2) := hlen
  simp only [finishRead, hkind, hlen', decide_eq_true_eq]

end Sys2Proof.Machine
end

section
/-! The statements about frames on the line (R142 to R144, R152). -/

namespace Sys2Proof.Machine

/-- Settles O28: the result by how far the fields go, and after the check by the end marker. -/
theorem faultyFramesGiveTheirCause : Obligations.FaultyFramesGiveTheirCause := by
  intro fields sent part len check short whole right kinds
  have hcheck : crc (fields.take (fields.length - 16)) = check := crc_eq_foldl _
  have hpart : part (fields.length - 16) 16 = numberOf (fields.drop (fields.length - 16)) :=
    congrArg numberOf (List.take_of_length_le (by rw [List.length_drop]; omega))
  have hright : right ↔ CheckRight fields := by
    show part (fields.length - 16) 16 = check.toNat ↔ _
    rw [hpart, ← hcheck]
    exact Iff.rfl
  have hwhole : whole → WholeFields fields := fun h => ⟨h.1, h.2.1, h.2.2⟩
  have hgoes : short → GoesOn fields fields.length := id
  have hsent : ∀ rest, sent ++ rest =
      false :: (Cursor.start.send fields ++ ((Cursor.start.after fields).due ++ rest)) := fun rest => by
    show false :: stuff false 1 fields ++ rest = _
    rw [sent_eq, List.cons_append, List.append_assoc]
  refine ⟨fun hs n => ?_, fun hs pre b rest heq => ?_, fun h14 hlong rest => ?_, fun hw hr rest => ?_, fun hw hr => ?_⟩
  · refine readFrame_take ?_ n
    rw [sent_eq, readFrame_goesOn (hgoes hs), readBits_due]
  · obtain ⟨hrun, hlast, hbits⟩ := due_of_sent heq
    have hsplit : pre ++ List.replicate 6 b ++ rest =
        false :: (Cursor.start.send fields ++ ((Cursor.start.after fields).last :: rest)) := by
      rw [hlast, ← List.cons_append, ← hbits, List.replicate_succ', List.append_assoc, List.append_assoc,
        List.append_assoc]
      rfl
    rw [hsplit]
    obtain hs | ⟨hw, hr⟩ := hs
    · rw [readFrame_goesOn (hgoes hs)]
      exact (readBits_wrong_stuff _ _ hrun).1
    · rw [readFrame_fields (hwhole hw).ne_nil (hwhole hw).goesOn,
        (hwhole hw).afterField_right (hright.mp hr)]
      exact (readBits_wrong_stuff _ _ hrun).2
  · have hne : fields ≠ [] := by
      rintro rfl
      exact absurd h14 (by decide)
    have hlong' : 12 < headerLength fields := hlong
    have hafter : afterField fields = .inr 2 := by
      unfold afterField
      rw [if_pos (by simp [h14, hlong'])]
    rw [hsent, readFrame_fields hne (.inl (by omega)), hafter]
    rfl
  · rw [hsent, readFrame_fields (hwhole hw).ne_nil (hwhole hw).goesOn,
      (hwhole hw).afterField_wrong (mt hright.mpr hr)]
    rfl
  · have hread := (hwhole hw).readFrame_sent (hright.mp hr)
    have hhead : part 0 1 = (fields.headD false).toNat := numberOf_take_one (hwhole hw).ne_nil
    refine ⟨fun i rest hi => ?_, fun rest => ?_⟩
    · obtain ⟨hincomplete, hfault⟩ := readBits_marker_short fields.reverse true 1 hi rest
      refine ⟨(hread _).trans hincomplete, ?_⟩
      rw [List.append_assoc]
      exact (hread _).trans hfault
    · intro result
      have hresult : result = finishRead fields := by
        have hmarker := readBits_marker_whole fields.reverse true 1 6 rest
        rw [List.reverse_reverse] at hmarker
        show readFrame (sent ++ List.replicate 7 true ++ rest) = _
        rw [List.append_assoc]
        exact (hread _).trans hmarker
      rw [hresult, hhead]
      refine ⟨finishRead_of_unknown, fun x hx hcode => ⟨fun hlen => ?_, fun hlen => ?_⟩⟩
      · rw [finishRead_of_kind hx hcode]
        exact if_neg hlen
      · rw [finishRead_of_kind hx hcode, bytesOf_eq_map]
        simp only [List.drop_drop]
        exact if_pos hlen

/-! ### Frames as sent -/

/-- A number among the bits of a frame. -/
theorem numberOf_bits_after {w n i : Nat} {pre : List Bool} (rest : List Bool) (hi : pre.length = i) (h : n < 2 ^ w) :
    numberOf (((pre ++ (bitsOf w n ++ rest)).drop i).take w) = n := by
  rw [← hi, List.drop_left, List.take_left' (length_bitsOf ..), numberOf_bitsOf_of_lt h]

theorem kindByte_spec (k : FrameKind) : bitsOf 5 k.byte = k.normalClass :: bitsOf 4 k.code ∧ k.code < 16 ∧
    kindOf k.normalClass k.code = some k := by
  cases k <;> decide

theorem lengthOk_le {k : FrameKind} {n : Nat} (h : k.lengthOk n = true) : n ≤ 12 := by
  cases k <;> simp [FrameKind.lengthOk] at h <;> omega

/-- The field bits of a frame with its check. -/
def LineFrame.fieldBits (f : LineFrame) : List Bool := f.body ++ bitsOf 16 (crc f.body).toNat

theorem LineFrame.fieldBits_eq (f : LineFrame) : f.fieldBits = [f.kind.normalClass] ++ (bitsOf 4 f.kind.code ++
    (bitsOf 5 f.origin ++ (bitsOf 4 f.payload.length ++ (bitsOfBytes f.payload ++
      bitsOf 16 (crc f.body).toNat)))) := by
  simp [LineFrame.fieldBits, LineFrame.body, bitsOfBytes]

theorem LineFrame.length_body (f : LineFrame) : f.body.length = 14 + 8 * f.payload.length := by
  have hbytes := length_bitsOfBytes f.payload
  rw [bitsOfBytes] at hbytes
  simp only [LineFrame.body, List.length_cons, List.length_append, length_bitsOf, hbytes]
  omega

section ReadBack

variable {f : LineFrame} (horigin : f.origin < 32) (hlength : f.kind.lengthOk f.payload.length = true)

include hlength in
theorem LineFrame.headerLength_fieldBits : headerLength f.fieldBits = f.payload.length := by
  have hle := lengthOk_le hlength
  rw [headerLength, f.fieldBits_eq, ← List.append_assoc, ← List.append_assoc]
  exact numberOf_bits_after _ (by simp) (by omega)

include hlength in
theorem LineFrame.whole_fieldBits : WholeFields f.fieldBits := by
  have hbits : f.fieldBits.length = 30 + 8 * f.payload.length := by
    rw [LineFrame.fieldBits, List.length_append, f.length_body, length_bitsOf]
    omega
  have hle := lengthOk_le hlength
  have hheader := LineFrame.headerLength_fieldBits hlength
  exact ⟨by omega, by omega, by rw [hbits, hheader]⟩

theorem LineFrame.checkRight_fieldBits (f : LineFrame) : CheckRight f.fieldBits := by
  have hcount : f.fieldBits.length - 16 = f.body.length := by simp [LineFrame.fieldBits]
  rw [CheckRight, hcount, LineFrame.fieldBits, List.drop_left, List.take_left,
    numberOf_bitsOf_of_lt (crc f.body).isLt]

include horigin hlength in
/-- The fields of a frame are read as the frame (R142). -/
theorem LineFrame.finishRead_fieldBits : finishRead f.fieldBits = .valid f := by
  obtain ⟨-, hcode, hkind⟩ := kindByte_spec f.kind
  have hheader := LineFrame.headerLength_fieldBits hlength
  have hclass : f.fieldBits.headD false = f.kind.normalClass := rfl
  have hnumber : numberOf ((f.fieldBits.drop 1).take 4) = f.kind.code := by
    rw [f.fieldBits_eq]
    exact numberOf_bits_after _ rfl hcode
  have hstation : numberOf ((f.fieldBits.drop 5).take 5) = f.origin := by
    rw [f.fieldBits_eq, ← List.append_assoc]
    exact numberOf_bits_after _ (by simp) horigin
  have hpayload : bytesOf f.payload.length (f.fieldBits.drop 14) = f.payload := by
    have hdrop : f.fieldBits.drop 14 = bitsOfBytes f.payload ++ bitsOf 16 (crc f.body).toNat := by
      rw [f.fieldBits_eq, ← List.append_assoc, ← List.append_assoc, ← List.append_assoc]
      exact List.drop_left' (by simp)
    have hbytes := bytesOf_bitsOfBytes f.payload 0 (bitsOf 16 (crc f.body).toNat)
    rw [Nat.add_zero] at hbytes
    rw [hdrop, hbytes]
    exact List.append_nil _
  simp only [finishRead, hclass, hnumber, hkind, hheader, hlength, if_true, hstation, hpayload]

end ReadBack

theorem LineFrame.wire_eq (f : LineFrame) :
    f.wire = false :: stuff false 1 f.fieldBits ++ List.replicate 7 true := rfl

/-- A stuff bit follows exactly where the bits sent end in five equal bits (R143). -/
theorem stuff_append (fields : List Bool) (b : Bool) : stuff false 1 (fields ++ [b]) =
    stuff false 1 fields ++ [b] ++
      (if (false :: (stuff false 1 fields ++ [b])).drop ((false :: (stuff false 1 fields ++ [b])).length - 5) =
        List.replicate 5 b then [!b] else []) := by
  have hsend : Cursor.start.send (fields ++ [b]) = stuff false 1 fields ++ [b] := by
    rw [Cursor.send_append, sent_eq, List.append_assoc]
    rfl
  have hfollows := Cursor.follows_start.after (fields ++ [b])
  have hlast : (Cursor.start.after (fields ++ [b])).last = b := by
    rw [Cursor.after_append]
    rfl
  have hreverse : (Cursor.start.send (fields ++ [b])).reverse ++ [false] =
      (false :: (stuff false 1 fields ++ [b])).reverse := by rw [hsend, List.reverse_cons]
  have hfive : (false :: (stuff false 1 fields ++ [b])).drop ((false :: (stuff false 1 fields ++ [b])).length - 5) =
      List.replicate 5 b ↔ (Cursor.start.after (fields ++ [b])).run = 5 := by
    rw [hreverse] at hfollows
    have htake := hfollows.take_eq b
    rw [List.take_reverse, ← List.reverse_replicate, List.reverse_inj] at htake
    rw [htake, and_iff_left hlast]
  rw [sent_eq, hsend]
  rw [if_congr hfive rfl rfl, Cursor.due, hlast]

/-- Settles O50: the bits of a frame by definition, a stuff bit after five equal bits, and the frame read back. -/
theorem frameOnTheLineReadsBack : Obligations.FrameOnTheLineReadsBack := by
  refine ⟨fun f => ?_, rfl, stuff_append, fun f horigin hlength => ?_⟩
  · intro number kind fields check
    have hnumber : ∀ w n, number w n = bitsOf w n := fun w n => (bitsOf_eq_map w n).symm
    have hkind : kind = f.kind.byte := by
      simp only [kind]
      cases f.kind <;> rfl
    have hfields : fields = f.body := by
      obtain ⟨hbyte, -, -⟩ := kindByte_spec f.kind
      simp only [fields, hnumber, hkind, hbyte]
      rfl
    have hcheck : check = crc f.body := by
      rw [crc_eq_foldl, ← hfields]
    rw [hfields, hnumber, hcheck]
    rfl
  · have hmarker := readBits_marker_whole f.fieldBits.reverse true 1 6 []
    rw [List.reverse_reverse, List.append_nil] at hmarker
    rw [f.wire_eq, (LineFrame.whole_fieldBits hlength).readFrame_sent f.checkRight_fieldBits]
    exact hmarker.trans (LineFrame.finishRead_fieldBits horigin hlength)

end Sys2Proof.Machine
end

section
/-! The checks of a configuration block: every field once, in index order (R167; 09 section 9.2). -/

namespace Sys2Proof.Machine

/-! ### Checks that cover a range of fields -/

/-- The checks go through the fields `low` to below `high` in order, each as the predicate says, and leave out only
good ones. -/
structure Covers (good : Nat → Prop) (checks : List FieldCheck) (low high : Nat) : Prop where
  sorted : checks.Pairwise fun a b => a.1 < b.1
  sound : ∀ c ∈ checks, low ≤ c.1 ∧ c.1 < high ∧ (c.2 = true ↔ good c.1)
  complete : ∀ i, low ≤ i → i < high → ¬ good i → ∃ c ∈ checks, c.1 = i
  le : low ≤ high

namespace Covers

variable {good : Nat → Prop} {xs ys : List FieldCheck} {low mid high : Nat}

theorem nil (h : low ≤ high) (hgood : ∀ i, low ≤ i → i < high → good i) : Covers good [] low high :=
  ⟨.nil, by simp, fun i hlow hhigh hbad => absurd (hgood i hlow hhigh) hbad, h⟩

theorem append (hx : Covers good xs low mid) (hy : Covers good ys mid high) : Covers good (xs ++ ys) low high := by
  have hle := hx.le
  have hle' := hy.le
  refine ⟨List.pairwise_append.mpr ⟨hx.sorted, hy.sorted, fun a ha b hb => ?_⟩, fun c hc => ?_,
    fun i hlow hhigh hbad => ?_,
    hle.trans hle'⟩
  · exact Nat.lt_of_lt_of_le (hx.sound a ha).2.1 (hy.sound b hb).1
  · obtain hc | hc := List.mem_append.mp hc
    · obtain ⟨h1, h2, h3⟩ := hx.sound c hc
      exact ⟨h1, h2.trans_le hle', h3⟩
    · obtain ⟨h1, h2, h3⟩ := hy.sound c hc
      exact ⟨hle.trans h1, h2, h3⟩
  · by_cases hmid : i < mid
    · obtain ⟨c, hc, hi⟩ := hx.complete i hlow hmid hbad
      exact ⟨c, List.mem_append_left _ hc, hi⟩
    · obtain ⟨c, hc, hi⟩ := hy.complete i (Nat.le_of_not_lt hmid) hhigh hbad
      exact ⟨c, List.mem_append_right _ hc, hi⟩

/-- One field more in front, whose check says `q`. -/
theorem cons {i : Nat} {b : Bool} {q : Prop} (hi : i = low) (hgood : good low ↔ q) (hb : b = true ↔ q)
    (h : Covers good xs (low + 1) high) : Covers good ((i, b) :: xs) low high := by
  subst hi
  have hone : Covers good [(i, b)] i (i + 1) := by
    refine ⟨List.pairwise_singleton .., fun c hc => ?_, fun _ hlow hhigh _ => ⟨(i, b), by simp, by simp only; omega⟩,
      Nat.le_succ i⟩
    obtain rfl := List.mem_singleton.mp hc
    exact ⟨Nat.le_refl i, Nat.lt_succ_self i, hb.trans hgood.symm⟩
  exact hone.append h

theorem empty : Covers good [] low low :=
  nil (Nat.le_refl _) fun _ hlow hhigh => absurd hlow (Nat.not_le.mpr hhigh)

/-- Blocks of one width, one after another. -/
theorem flatMap {f : Nat → List FieldCheck} {width : Nat} (n : Nat)
    (h : ∀ k, k < n → Covers good (f k) (low + width * k) (low + width * (k + 1))) :
    Covers good ((List.range n).flatMap f) low (low + width * n) := by
  induction n with
  | zero => exact empty
  | succ n ih =>
    rw [List.range_succ, List.flatMap_append, List.flatMap_singleton]
    exact (ih fun k hk => h k (hk.trans (Nat.lt_succ_self n))).append (h n (Nat.lt_succ_self n))

/-- The first check that fails is that of the first field that is not good. -/
theorem find_eq_some (h : Covers good xs low high) (i : Nat) : (xs.find? fun c => !c.2).map Prod.fst = some i ↔
    low ≤ i ∧ i < high ∧ ¬ good i ∧ ∀ j, low ≤ j → j < i → good j := by
  have hfirst : ∀ c, xs.find? (fun c => !c.2) = some c →
      low ≤ c.1 ∧ c.1 < high ∧ ¬ good c.1 ∧ ∀ j, low ≤ j → j < c.1 → good j := by
    intro c hfind
    obtain ⟨hfail, as, bs, rfl, hpass⟩ := List.find?_eq_some_iff_append.mp hfind
    obtain ⟨hlow, hhigh, hgood⟩ := h.sound c (by simp)
    refine ⟨hlow, hhigh, fun hg => by simp [hgood.mpr hg] at hfail, fun j hjlow hj => ?_⟩
    by_contra hbad
    obtain ⟨d, hd, rfl⟩ := h.complete j hjlow (hj.trans hhigh) hbad
    obtain hd' | hd' := List.mem_append.mp hd
    · exact hbad ((h.sound d hd).2.2.mp (by simpa using hpass d hd'))
    · obtain rfl | hd' := List.mem_cons.mp hd'
      · exact Nat.lt_irrefl _ hj
      · exact Nat.lt_asymm hj (List.rel_of_pairwise_cons (List.pairwise_append.mp h.sorted).2.1 hd')
  constructor
  · intro hmap
    obtain ⟨c, hfind, rfl⟩ := Option.map_eq_some_iff.mp hmap
    exact hfirst c hfind
  · rintro ⟨hlow, hhigh, hbad, hbefore⟩
    obtain ⟨d, hd, rfl⟩ := h.complete i hlow hhigh hbad
    have hfail : (!d.2) = true := by simpa using mt (h.sound d hd).2.2.mp hbad
    have hsome : (xs.find? fun c => !c.2).isSome := List.find?_isSome.mpr ⟨d, hd, hfail⟩
    obtain ⟨c, hfind⟩ := Option.isSome_iff_exists.mp hsome
    obtain ⟨hclow, _, hcbad, hcbefore⟩ := hfirst c hfind
    have hge : ¬ c.1 < d.1 := fun hlt => hcbad (hbefore c.1 hclow hlt)
    have hle : ¬ d.1 < c.1 := fun hlt => hbad (hcbefore d.1 hlow hlt)
    rw [hfind, Option.map_some, Option.some.injEq]
    omega

theorem find_eq_none (h : Covers good xs low high) : (xs.find? fun c => !c.2).map Prod.fst = none ↔
    ∀ i, low ≤ i → i < high → good i := by
  rw [Option.map_eq_none_iff, List.find?_eq_none]
  constructor
  · intro hpass i hlow hhigh
    by_contra hbad
    obtain ⟨c, hc, rfl⟩ := h.complete i hlow hhigh hbad
    exact hbad ((h.sound c hc).2.2.mp (by simpa using hpass c hc))
  · intro hgood c hc
    obtain ⟨hlow, hhigh, hiff⟩ := h.sound c hc
    simpa using hiff.mpr (hgood c.1 hlow hhigh)

end Covers

end Sys2Proof.Machine
end

section
/-! What each field of a configuration block has to say, and that the checks of the block go through exactly these
fields (R44, R63, R167; 09 section 9.2). -/

namespace Sys2Proof.Machine

/-! ### The fields -/

/-- Fields 1 to 19. -/
def GeneralGood (p : List Byte) (i : Nat) : Prop :=
  match i with
  | 1 => 1 ≤ byteAt p 0 ∧ byteAt p 0 ≤ 24
  | 3 => 1 ≤ byteAt p 4 ∧ byteAt p 4 ≤ 3
  | 4 => 1 ≤ field p 5 2
  | 5 => 1 ≤ field p 7 2
  | 6 => byteAt p 9 ≤ 1
  | 8 => 1 ≤ byteAt p 12 ∧ byteAt p 12 ≤ 16
  | 9 => byteAt p 13 ≤ 1
  | 10 => byteAt p 14 ≤ 1
  | 11 => byteAt p 15 ≤ 4
  | 12 => byteAt p 15 = 0 ∨ 1 ≤ field p 16 2
  | 13 => byteAt p 18 ≤ 2
  | 14 => 1 ≤ field p 19 2
  | 15 => byteAt p 21 ≤ 15
  | 16 => 100 ≤ field p 22 2 ∧ field p 22 2 ≤ 1000
  | 17 => 10 ≤ field p 24 2 ∧ field p 24 2 ≤ 1000
  | 18 => 50 ≤ field p 26 2 ∧ field p 26 2 ≤ 2000
  | 19 => 10 ≤ byteAt p 28 ∧ byteAt p 28 ≤ 250
  | _ => True

/-- The fields of the sensor that begins at byte `start`. -/
def SensorGood (p : List Byte) (start f : Nat) : Prop :=
  match f with
  | 0 => byteAt p start ≤ 2
  | 1 => -100000 ≤ signed32 p (start + 1) ∧ signed32 p (start + 1) ≤ 100000
  | 2 => byteAt p (start + 5) ≤ 3 ∧ (byteAt p (start + 5) = 3 → byteAt p 13 = 1)
  | 3 => byteAt p (start + 5) = 1 → byteAt p (start + 6) ≤ 6
  | _ => byteAt p (start + 5) = 1 → 1 ≤ field p (start + 7) 2 ∧ field p (start + 7) 2 < 2 ^ byteAt p 12

/-- The fields of the table entry that begins at byte `start`. -/
def EntryGood (p : List Byte) (start f : Nat) : Prop :=
  match f with
  | 0 => byteAt p start ≤ 7
  | 1 =>
    if byteAt p start ≤ 3 then 1 ≤ byteAt p (start + 1) ∧ byteAt p (start + 1) ≤ 4
    else if byteAt p start = 5 then 1 ≤ byteAt p (start + 1) ∧ byteAt p (start + 1) ≤ 4 ∧
      byteAt p (42 + 9 * (byteAt p (start + 1) - 1)) = 2
    else byteAt p start ≤ 7 ∧ byteAt p (start + 1) = 0
  | 2 => -1000000 ≤ signed32 p (start + 2) ∧ signed32 p (start + 2) ≤ 1000000
  | 3 => 1 ≤ field p (start + 6) 2
  | _ => byteAt p (start + 8) ≤ 1 ∧ ¬ (byteAt p start = 0 ∧ byteAt p (30 + 2 * (byteAt p (start + 1) - 1)) = 1 ∧
      byteAt p (start + 8) = 1)

/-- The fields of the block, by index. -/
def FieldGood (p : List Byte) (i : Nat) : Prop :=
  if i ≤ 19 then GeneralGood p i
  else if i ≤ 27 then byteAt p (i + 9) ≤ 1
  else if i ≤ 47 then SensorGood p (37 + 9 * ((i - 28) / 5)) ((i - 28) % 5)
  else if (i - 48) % 21 = 0 then byteAt p (73 + 37 * ((i - 48) / 21)) ≤ 4
  else ((i - 48) % 21 - 1) / 5 < byteAt p (73 + 37 * ((i - 48) / 21)) →
    EntryGood p (74 + 37 * ((i - 48) / 21) + 9 * (((i - 48) % 21 - 1) / 5)) (((i - 48) % 21 - 1) % 5)

theorem fieldGood_general {p : List Byte} {i : Nat} (h : i ≤ 19) : FieldGood p i ↔ GeneralGood p i := by
  rw [FieldGood, if_pos h]

theorem fieldGood_output {p : List Byte} {i : Nat} (hlow : 20 ≤ i) (hhigh : i ≤ 27) :
    FieldGood p i ↔ byteAt p (i + 9) ≤ 1 := by
  rw [FieldGood, if_neg (by omega), if_pos hhigh]

theorem fieldGood_sensor {p : List Byte} {i n f : Nat} (hn : n < 4) (hf : f < 5) (hi : i = 28 + 5 * n + f) :
    FieldGood p i ↔ SensorGood p (37 + 9 * n) f := by
  have hdiv : (i - 28) / 5 = n := by omega
  have hmod : (i - 28) % 5 = f := by omega
  rw [FieldGood, if_neg (by omega), if_neg (by omega), if_pos (by omega), hdiv, hmod]

theorem fieldGood_count {p : List Byte} {i k : Nat} (hi : i = 48 + 21 * k) :
    FieldGood p i ↔ byteAt p (73 + 37 * k) ≤ 4 := by
  have hdiv : (i - 48) / 21 = k := by omega
  rw [FieldGood, if_neg (by omega), if_neg (by omega), if_neg (by omega), if_pos (by omega), hdiv]

theorem fieldGood_entry {p : List Byte} {i k j f : Nat} (hj : j < 4) (hf : f < 5)
    (hi : i = 49 + 21 * k + 5 * j + f) :
    FieldGood p i ↔ (j < byteAt p (73 + 37 * k) → EntryGood p (74 + 37 * k + 9 * j) f) := by
  have hdiv : (i - 48) / 21 = k := by omega
  have hentry : ((i - 48) % 21 - 1) / 5 = j := by omega
  have hmod : ((i - 48) % 21 - 1) % 5 = f := by omega
  rw [FieldGood, if_neg (by omega), if_neg (by omega), if_neg (by omega), if_neg (by omega), hdiv, hentry, hmod]

/-! ### What the checks say -/

theorem natBE_lt (bytes : List Byte) : natBE bytes < 256 ^ bytes.length := by
  induction bytes with
  | nil => simp [natBE]
  | cons b bytes ih =>
    have hb := b.isLt
    rw [natBE_cons, List.length_cons, Nat.pow_succ]
    nlinarith

theorem field_lt (p : List Byte) (i count : Nat) : field p i count < 256 ^ count :=
  (natBE_lt _).trans_le (Nat.pow_le_pow_right (by decide) (List.length_take_le ..))

/-- A two byte field has no upper limit to check. -/
theorem within_field_iff {p : List Byte} {i : Nat} : within 1 65535 (field p i 2) = true ↔ 1 ≤ field p i 2 := by
  have hlt := field_lt p i 2
  rw [within_iff]
  omega

theorem within_zero_iff {high n : Nat} : within 0 high n = true ↔ n ≤ high := by
  simp

/-- A lane set as a number: lanes 1 to the lane count are those below 2 to the power of the count. -/
theorem lanesWithin_ofNat_iff {count f : Nat} (hf : f < 2 ^ 16) :
    lanesWithin count (BitVec.ofNat 16 f) = true ↔ 1 ≤ f ∧ f < 2 ^ count := by
  have hzero : BitVec.ofNat 16 f = 0 ↔ f = 0 := by
    rw [← BitVec.toNat_inj, BitVec.toNat_ofNat, Nat.mod_eq_of_lt hf]
    rfl
  have hall : BitVec.ofNat 16 f &&& allLanes count = BitVec.ofNat 16 f ↔ f < 2 ^ count := by
    have hmod : f % 2 ^ count < 2 ^ 16 := (Nat.mod_le f _).trans_lt hf
    rw [allLanes, ← BitVec.ofNat_and, Nat.and_two_pow_sub_one_eq_mod, ← BitVec.toNat_inj, BitVec.toNat_ofNat,
      BitVec.toNat_ofNat, Nat.mod_eq_of_lt hmod, Nat.mod_eq_of_lt hf, Nat.mod_eq_iff_lt (by positivity)]
  rw [lanesWithin_iff, Ne, hzero, hall, Nat.one_le_iff_ne_zero]

/-- The action type codes are 0 to 7, in the order of the types. -/
theorem actionTypes_getElem? (code : Nat) :
    [ActionType.pulse, .set, .clear, .toggle, .hold, .sight, .record, .note][code]? = actionTypeOf code := by
  match code with
  | 0 | 1 | 2 | 3 | 4 | 5 | 6 | 7 => rfl
  | n + 8 => rfl

theorem isSome_actionTypeOf {code : Nat} : (actionTypeOf code).isSome = true ↔ code ≤ 7 := by
  rw [← actionTypes_getElem?]
  rw [Option.isSome_iff_ne_none, Ne, List.getElem?_eq_none_iff, Nat.not_le]
  exact Nat.lt_succ_iff

theorem actionTypeOf_eq_pulse {code : Nat} : (actionTypeOf code == some .pulse) = true ↔ code = 0 := by
  match code with
  | 0 | 1 | 2 | 3 | 4 | 5 | 6 | 7 => decide
  | n + 8 => simp [actionTypeOf]

theorem parameterOk_iff {p : List Byte} {start : Nat} :
    parameterOk p (actionTypeOf (byteAt p start)) (byteAt p (start + 1)) = true ↔ EntryGood p start 1 := by
  rw [EntryGood]
  generalize byteAt p start = code
  generalize byteAt p (start + 1) = param
  match code with
  | 0 | 1 | 2 | 3 => simp [actionTypeOf, parameterOk]
  | 5 => simp [actionTypeOf, parameterOk, functionCode, and_assoc]
  | 4 | 6 | 7 => simp [actionTypeOf, parameterOk]
  | n + 8 => simp [actionTypeOf, parameterOk]

theorem byExtentOk_iff {p : List Byte} {start : Nat} :
    byExtentOk p (actionTypeOf (byteAt p start)) (byteAt p (start + 1)) (byteAt p (start + 8)) = true ↔
      EntryGood p start 4 := by
  rw [byExtentOk, Bool.and_eq_true, within_zero_iff, Bool.not_eq_true', ← Bool.not_eq_true, Bool.and_eq_true,
    Bool.and_eq_true, actionTypeOf_eq_pulse, beq_iff_eq, beq_iff_eq, and_assoc]
  exact .rfl

/-! ### The checks go through the fields -/

theorem covers_general (p : List Byte) : Covers (FieldGood p) (generalChecks p) 1 20 := by
  have hgood : ∀ {i}, i ≤ 19 → (FieldGood p i ↔ GeneralGood p i) := fieldGood_general
  have hout : (byteAt p 15 == 0 || within 1 65535 (field p 16 2)) = true ↔ byteAt p 15 = 0 ∨ 1 ≤ field p 16 2 := by
    rw [Bool.or_eq_true, beq_iff_eq, within_field_iff]
  exact .cons rfl (hgood (by decide)) within_iff <|
    .cons rfl (hgood (by decide)) (iff_of_true rfl trivial) <|
    .cons rfl (hgood (by decide)) within_iff <|
    .cons rfl (hgood (by decide)) within_field_iff <|
    .cons rfl (hgood (by decide)) within_field_iff <|
    .cons rfl (hgood (by decide)) within_zero_iff <|
    .cons rfl (hgood (by decide)) (iff_of_true rfl trivial) <|
    .cons rfl (hgood (by decide)) within_iff <|
    .cons rfl (hgood (by decide)) within_zero_iff <|
    .cons rfl (hgood (by decide)) within_zero_iff <|
    .cons rfl (hgood (by decide)) within_zero_iff <|
    .cons rfl (hgood (by decide)) hout <|
    .cons rfl (hgood (by decide)) within_zero_iff <|
    .cons rfl (hgood (by decide)) within_field_iff <|
    .cons rfl (hgood (by decide)) within_zero_iff <|
    .cons rfl (hgood (by decide)) within_iff <|
    .cons rfl (hgood (by decide)) within_iff <|
    .cons rfl (hgood (by decide)) within_iff <|
    .cons rfl (hgood (by decide)) within_iff .empty

theorem covers_output (p : List Byte) {n : Nat} (hn : n < 4) :
    Covers (FieldGood p) (outputChecks p n) (20 + 2 * n) (20 + 2 * (n + 1)) := by
  have hidle : FieldGood p (20 + 2 * n) ↔ byteAt p (29 + 2 * n) ≤ 1 := by
    rw [fieldGood_output (by omega) (by omega), show 20 + 2 * n + 9 = 29 + 2 * n by omega]
  have hunit : FieldGood p (20 + 2 * n + 1) ↔ byteAt p (30 + 2 * n) ≤ 1 := by
    rw [fieldGood_output (by omega) (by omega), show 20 + 2 * n + 1 + 9 = 30 + 2 * n by omega]
  exact .cons rfl hidle within_zero_iff <| .cons (by omega) hunit within_zero_iff .empty

/-- A pair of limits on a signed number. -/
theorem limits_iff {low high n : Int} : (decide (low ≤ n) && decide (n ≤ high)) = true ↔ low ≤ n ∧ n ≤ high := by
  rw [Bool.and_eq_true, decide_eq_true_eq, decide_eq_true_eq]

/-- A check that is only made under a condition. -/
theorem unless_iff {code n : Nat} {b : Bool} {q : Prop} (hb : b = true ↔ q) :
    (code != n || b) = true ↔ (code = n → q) := by
  rw [Bool.or_eq_true, bne_iff_ne, hb, imp_iff_not_or]

theorem covers_sensor (p : List Byte) {n : Nat} (hn : n < 4) :
    Covers (FieldGood p) (sensorChecks p n) (28 + 5 * n) (28 + 5 * (n + 1)) := by
  have hgood : ∀ f, f < 5 → ∀ {i}, i = 28 + 5 * n + f → (FieldGood p i ↔ SensorGood p (37 + 9 * n) f) :=
    fun f hf i => fieldGood_sensor hn hf
  have hcode : functionCode p n = byteAt p (37 + 9 * n + 5) := by rw [functionCode]; congr 1; omega
  have hfunction : (within 0 3 (functionCode p n) && (functionCode p n != 3 || byteAt p 13 == 1)) = true ↔
      SensorGood p (37 + 9 * n) 2 := by
    rw [Bool.and_eq_true, within_zero_iff, unless_iff beq_iff_eq, hcode, SensorGood]
  have hoffset : (decide (-100000 ≤ signed32 p (38 + 9 * n)) && decide (signed32 p (38 + 9 * n) ≤ 100000)) = true ↔
      SensorGood p (37 + 9 * n) 1 := by
    rw [limits_iff, SensorGood, show 37 + 9 * n + 1 = 38 + 9 * n by omega]
  have hkind : (functionCode p n != 1 || within 0 6 (byteAt p (43 + 9 * n))) = true ↔
      SensorGood p (37 + 9 * n) 3 := by
    rw [unless_iff within_zero_iff, hcode, SensorGood, show 37 + 9 * n + 6 = 43 + 9 * n by omega]
  have hlanes : (functionCode p n != 1 ||
      lanesWithin (byteAt p 12) (BitVec.ofNat 16 (field p (44 + 9 * n) 2))) = true ↔
      SensorGood p (37 + 9 * n) 4 := by
    rw [unless_iff (lanesWithin_ofNat_iff (field_lt p _ 2)), hcode, show 44 + 9 * n = 37 + 9 * n + 7 by omega]
    exact .rfl
  exact .cons rfl (hgood 0 (by decide) rfl) within_zero_iff <|
    .cons (by omega) (hgood 1 (by decide) (by omega)) hoffset <|
    .cons (by omega) (hgood 2 (by decide) (by omega)) hfunction <|
    .cons (by omega) (hgood 3 (by decide) (by omega)) hkind <|
    .cons (by omega) (hgood 4 (by decide) (by omega)) hlanes .empty

theorem covers_entry (p : List Byte) {k j : Nat} (hj : j < 4) (hcount : j < byteAt p (73 + 37 * k)) :
    Covers (FieldGood p) (entryChecks p k j) (49 + 21 * k + 5 * j) (49 + 21 * k + 5 * (j + 1)) := by
  have hgood : ∀ f, f < 5 → ∀ {i}, i = 49 + 21 * k + 5 * j + f →
      (FieldGood p i ↔ EntryGood p (74 + 37 * k + 9 * j) f) :=
    fun f hf i hi => (fieldGood_entry hj hf hi).trans (imp_iff_right hcount)
  exact .cons rfl (hgood 0 (by decide) rfl) isSome_actionTypeOf <|
    .cons (by omega) (hgood 1 (by decide) (by omega)) parameterOk_iff <|
    .cons (by omega) (hgood 2 (by decide) (by omega)) limits_iff <|
    .cons (by omega) (hgood 3 (by decide) (by omega)) within_field_iff <|
    .cons (by omega) (hgood 4 (by decide) (by omega)) byExtentOk_iff .empty

/-- The fields of the entries beyond the count are not checked, and nothing is asked of them. -/
theorem covers_kind (p : List Byte) (k : Nat) :
    Covers (FieldGood p) (kindChecks p k) (48 + 21 * k) (48 + 21 * (k + 1)) := by
  have hentries : Covers (FieldGood p) ((List.range (min 4 (byteAt p (73 + 37 * k)))).flatMap (entryChecks p k))
      (48 + 21 * k + 1) (49 + 21 * k + 5 * min 4 (byteAt p (73 + 37 * k))) := by
    rw [show 48 + 21 * k + 1 = 49 + 21 * k by omega]
    exact .flatMap _ fun j hj => covers_entry p (by omega) (by omega)
  have hbeyond : Covers (FieldGood p) [] (49 + 21 * k + 5 * min 4 (byteAt p (73 + 37 * k))) (48 + 21 * (k + 1)) := by
    refine .nil (by omega) fun i hlow hhigh => ?_
    refine (fieldGood_entry (k := k) (j := (i - (49 + 21 * k)) / 5) (f := (i - (49 + 21 * k)) % 5) (by omega)
      (by omega) (by omega)).mpr fun hj => ?_
    omega
  have happend := hentries.append hbeyond
  rw [List.append_nil] at happend
  exact .cons rfl (fieldGood_count rfl) within_zero_iff happend

/-- The checks of the block go through fields 1 to 215. -/
theorem covers_fieldChecks (p : List Byte) : Covers (FieldGood p) (fieldChecks p) 1 216 :=
  (((covers_general p).append (.flatMap 4 fun _ hn => covers_output p hn)).append
    (.flatMap 4 fun _ hn => covers_sensor p hn)).append (.flatMap 8 fun k _ => covers_kind p k)

theorem firstFailing_eq_some {p : List Byte} (i : Nat) : firstFailing p = some i ↔
    1 ≤ i ∧ i ≤ 215 ∧ ¬ FieldGood p i ∧ ∀ j, 1 ≤ j → j < i → FieldGood p j := by
  rw [firstFailing, (covers_fieldChecks p).find_eq_some, Nat.lt_succ_iff]

theorem firstFailing_eq_none {p : List Byte} : firstFailing p = none ↔ ∀ i, 1 ≤ i → i ≤ 215 → FieldGood p i := by
  simp only [firstFailing, (covers_fieldChecks p).find_eq_none, Nat.lt_succ_iff]

end Sys2Proof.Machine
end

section
/-! The settings that an accepted configuration block codes (R43, R44, R56; 09 section 9.2), and O15. -/

namespace Sys2Proof.Machine

/-! ### Codes -/

/-- A parameter code: 0 for none, 1 to 4 for a channel or an input. -/
def ParamCoded (x : Option (Fin 4)) (n : Nat) : Prop := x.map Fin.val = if n = 0 then none else some (n - 1)

theorem paramCoded_paramOf {n : Nat} (h : n ≤ 4) : ParamCoded (paramOf n) n := by
  match n with
  | 0 | 1 | 2 | 3 | 4 => rfl

theorem level_coded {n : Nat} (h : n ≤ 1) : [Level.low, .high][n]? = some (levelOf n) := by
  match n with
  | 0 | 1 => rfl

section
variable {p : List Byte}

theorem busRate_coded (hlow : 1 ≤ byteAt p 4) (hhigh : byteAt p 4 ≤ 3) :
    [BusRate.k250, .k500, .k1000][byteAt p 4 - 1]? = some (parseSettings p).busRate := by
  have hcode : byteAt p 4 = 1 ∨ byteAt p 4 = 2 ∨ byteAt p 4 = 3 := by omega
  obtain h | h | h := hcode <;> simp [parseSettings, h]

theorem sense_coded (h : byteAt p 9 ≤ 1) :
    [Sense.normal, .inverted][byteAt p 9]? = some (parseSettings p).sense := by
  obtain h | h := Nat.le_one_iff_eq_zero_or_eq_one.mp h <;> simp [parseSettings, h]

theorem trimGain_coded (h : byteAt p 18 ≤ 2) :
    [TrimGain.full, .half, .quarter][byteAt p 18]? = some (parseSettings p).trimGain := by
  have hcode : byteAt p 18 = 0 ∨ byteAt p 18 = 1 ∨ byteAt p 18 = 2 := by omega
  obtain h | h | h := hcode <;> simp [parseSettings, h]

theorem unit_coded {n : Nat} (h : byteAt p (30 + 2 * n) ≤ 1) :
    [WidthUnit.wu, .ms][byteAt p (30 + 2 * n)]? = some (parseOutput p n).unit := by
  obtain h | h := Nat.le_one_iff_eq_zero_or_eq_one.mp h <;> simp [parseOutput, h]

theorem edge_coded {n : Nat} (h : byteAt p (37 + 9 * n) ≤ 2) :
    [EdgeSetting.rising, .falling, .both][byteAt p (37 + 9 * n)]? = some (parseSensor p n).edge := by
  have hcode : byteAt p (37 + 9 * n) = 0 ∨ byteAt p (37 + 9 * n) = 1 ∨ byteAt p (37 + 9 * n) = 2 := by omega
  obtain h | h | h := hcode <;> simp [parseSensor, h]

theorem function_coded {n : Nat} (h : byteAt p (42 + 9 * n) ≤ 3) :
    [SensorFunction.off,
      .source (Fin.ofNat 8 (byteAt p (43 + 9 * n))) (BitVec.ofNat 16 (field p (44 + 9 * n) 2)),
      .sight, .cut][byteAt p (42 + 9 * n)]? = some (parseSensor p n).function := by
  have hcode : byteAt p (42 + 9 * n) = 0 ∨ byteAt p (42 + 9 * n) = 1 ∨ byteAt p (42 + 9 * n) = 2 ∨
    byteAt p (42 + 9 * n) = 3 := by omega
  obtain h | h | h | h := hcode <;> simp [parseSensor, parseFunction, functionCode, h]

theorem type_coded {k j : Nat} (h : byteAt p (74 + 37 * k + 9 * j) ≤ 7) :
    [ActionType.pulse, .set, .clear, .toggle, .hold, .sight, .record, .note][byteAt p (74 + 37 * k + 9 * j)]? =
      some (parseEntry p k j).type := by
  obtain ⟨type, htype⟩ := Option.isSome_iff_exists.mp (isSome_actionTypeOf.mpr h)
  rw [actionTypes_getElem?, parseEntry, htype, Option.getD_some]

/-! ### The parts of an accepted block -/

theorem get_parseOutputs (n : Fin 4) : (parseSettings p).outputs.get n = parseOutput p n := by
  match n with
  | 0 | 1 | 2 | 3 => rfl

theorem get_parseSensors (n : Fin 4) : (parseSettings p).sensors.get n = parseSensor p n := by
  match n with
  | 0 | 1 | 2 | 3 => rfl

theorem tableEntries_parseSettings (k : Fin 8) : tableEntries (parseSettings p) k = parseKind p k := by
  rw [tableEntries, parseSettings, List.getD_eq_getElem?_getD, List.getElem?_map, List.getElem?_range k.isLt]
  rfl

/-- A parameter that fits the type of its entry is 0 to 4. -/
theorem parameter_le_four {start : Nat} (h : EntryGood p start 1) : byteAt p (start + 1) ≤ 4 := by
  unfold EntryGood at h
  split_ifs at h with hlow hsight
  · exact h.2
  · exact h.2.1
  · exact h.2.le.trans (by decide)

theorem length_parseKind {k : Nat} (h : byteAt p (73 + 37 * k) ≤ 4) :
    (parseKind p k).length = byteAt p (73 + 37 * k) := by
  rw [parseKind, List.length_map, List.length_range, Nat.min_eq_right h]

theorem getElem?_parseKind {k j : Nat} {e : TableEntry} (h : (parseKind p k)[j]? = some e) :
    j < 4 ∧ j < byteAt p (73 + 37 * k) ∧ parseEntry p k j = e := by
  rw [parseKind, List.getElem?_map] at h
  obtain ⟨i, hi, rfl⟩ := Option.map_eq_some_iff.mp h
  obtain ⟨hj, rfl⟩ := List.getElem?_eq_some_iff.mp hi
  rw [List.length_range, Nat.lt_min] at hj
  exact ⟨hj.1, hj.2, by rw [List.getElem_range]⟩

/-- What the entry coded from byte `start` says. -/
def EntryCoded (p : List Byte) (start : Nat) (e : TableEntry) : Prop :=
  [ActionType.pulse, .set, .clear, .toggle, .hold, .sight, .record, .note][byteAt p start]? = some e.type ∧
    ParamCoded e.param (byteAt p (start + 1)) ∧ e.offset = signed32 p (start + 2) ∧
    e.width = field p (start + 6) 2 ∧ e.byExtent = decide (byteAt p (start + 8) = 1)

theorem parseEntry_coded {k j : Nat} (htype : EntryGood p (74 + 37 * k + 9 * j) 0)
    (hparam : EntryGood p (74 + 37 * k + 9 * j) 1) :
    EntryCoded p (74 + 37 * k + 9 * j) (parseEntry p k j) := by
  have hstart : ∀ c, 74 + c + 37 * k + 9 * j = 74 + 37 * k + 9 * j + c := fun c => by omega
  refine ⟨type_coded htype, ?_, congrArg (signed32 p) (hstart 2), congrArg (field p · 2) (hstart 6), ?_⟩
  · rw [← hstart 1]
    exact paramCoded_paramOf ((congrArg (byteAt p) (hstart 1)).trans_le (parameter_le_four hparam))
  · rw [← hstart 8]
    rfl

theorem tableEntries_coded (h : firstFailing p = none) (k : Fin 8) :
    (tableEntries (parseSettings p) k).length = byteAt p (73 + 37 * k.val) ∧
      ∀ (j : Nat) (e : TableEntry), (tableEntries (parseSettings p) k)[j]? = some e →
        EntryCoded p (74 + 37 * k.val + 9 * j) e := by
  have hgood := firstFailing_eq_none.mp h
  rw [tableEntries_parseSettings]
  refine ⟨length_parseKind ((fieldGood_count rfl).mp (hgood _ (by omega) (by omega))), fun j e he => ?_⟩
  obtain ⟨hj, hcount, rfl⟩ := getElem?_parseKind he
  have hentry : ∀ f, f < 5 → EntryGood p (74 + 37 * k.val + 9 * j) f := fun f hf =>
    (fieldGood_entry hj hf rfl).mp (hgood _ (by omega) (by omega)) hcount
  exact parseEntry_coded (hentry 0 (by decide)) (hentry 1 (by decide))

/-- The settings of output and sensor `n` as coded. -/
def PinsCoded (p : List Byte) (n : Nat) (out : OutputSettings) (sensor : SensorSettings) : Prop :=
  [Level.low, .high][byteAt p (29 + 2 * n)]? = some out.idle ∧
    [WidthUnit.wu, .ms][byteAt p (30 + 2 * n)]? = some out.unit ∧
    [EdgeSetting.rising, .falling, .both][byteAt p (37 + 9 * n)]? = some sensor.edge ∧
    sensor.offset = signed32 p (38 + 9 * n) ∧
    [SensorFunction.off,
      .source (Fin.ofNat 8 (byteAt p (43 + 9 * n))) (BitVec.ofNat 16 (field p (44 + 9 * n) 2)),
      .sight, .cut][byteAt p (42 + 9 * n)]? = some sensor.function

theorem pins_coded (h : firstFailing p = none) (n : Fin 4) :
    PinsCoded p n ((parseSettings p).outputs.get n) ((parseSettings p).sensors.get n) := by
  have hgood := firstFailing_eq_none.mp h
  have hsensor : ∀ f, f < 5 → SensorGood p (37 + 9 * n.val) f := fun f hf =>
    (fieldGood_sensor n.isLt hf rfl).mp (hgood _ (by omega) (by omega))
  have hidle := (fieldGood_output (i := 20 + 2 * n.val) (by omega) (by omega)).mp (hgood _ (by omega) (by omega))
  have hunit := (fieldGood_output (i := 21 + 2 * n.val) (by omega) (by omega)).mp (hgood _ (by omega) (by omega))
  rw [show 20 + 2 * n.val + 9 = 29 + 2 * n.val by omega] at hidle
  rw [show 21 + 2 * n.val + 9 = 30 + 2 * n.val by omega] at hunit
  have hfunction : byteAt p (37 + 9 * n.val + 5) ≤ 3 := (hsensor 2 (by decide)).1
  rw [show 37 + 9 * n.val + 5 = 42 + 9 * n.val by omega] at hfunction
  rw [get_parseOutputs, get_parseSensors]
  exact ⟨level_coded hidle, unit_coded hunit, edge_coded (hsensor 0 (by decide)), rfl, function_coded hfunction⟩

end

/-! ### The block -/

/-- Settles O15, from what the checks go through (`covers_fieldChecks`) and, for an accepted block, the codes of its
fields. -/
theorem configurationBlock : Obligations.ConfigurationBlock := by
  unfold Obligations.ConfigurationBlock
  intro p
  refine ⟨fun i => firstFailing_eq_some i, firstFailing_eq_none, fun hnone => ?_⟩
  have hgeneral : ∀ i, 1 ≤ i → i ≤ 19 → GeneralGood p i := fun i hlow hhigh =>
    (fieldGood_general hhigh).mp (firstFailing_eq_none.mp hnone i hlow (by omega))
  have hbus := hgeneral 3 (by decide) (by decide)
  have hsense := hgeneral 6 (by decide) (by decide)
  have hchannel := hgeneral 11 (by decide) (by decide)
  have hgain := hgeneral 13 (by decide) (by decide)
  exact ⟨rfl, rfl, busRate_coded hbus.1 hbus.2, rfl, rfl, sense_coded hsense, rfl, rfl, rfl, rfl,
    paramCoded_paramOf hchannel, rfl, trimGain_coded hgain, rfl, rfl, rfl, rfl, rfl, rfl,
    pins_coded hnone, tableEntries_coded hnone⟩

end Sys2Proof.Machine
end
